-- ==== Sys2Proof/Word.lean ====
section
/-! DEFINITION. The bit-vector types that the spec's words, bytes, nibbles and colors are. -/

namespace Sys2Proof

/-- A byte of TEXIN or TEXOUT, and one color channel. -/
abbrev Byte := BitVec 8

/-- A 4-bit field of the byte stream (the spec's glossary). -/
abbrev Nibble := BitVec 4

/-- A 32-bit word: a command word (R101), a 32-bit register, a PIX word. -/
abbrev Word := BitVec 32

/-- A Color packed as alpha 31:24, red 23:16, green 15:8, blue 7:0 (R12). -/
abbrev Color := BitVec 32

/-- The bundles of the block-codec port hold 16 colors (R35, R36). -/
abbrev Bundle := Vector Color 16

end Sys2Proof
end

