-- ==== Sys2Proof/Syntax.lean ====
section
/-! DEFINITION. The commands: one constructor per row of the opcode table (R102, R103, R109). -/

namespace Sys2Proof

/-- A command with its operand fields, each at the width of R102. -/
inductive Instr where
  /-- NOP (R130). -/
  | nop
  /-- CFG (R131): format C. -/
  | cfg (fmtv oriv : BitVec 4) (padv : BitVec 1)
  /-- DIM (R132): format D, each dimension minus one. -/
  | dim (wm1 hm1 : BitVec 14)
  /-- SETIDX (R133): format I. -/
  | setidx (imm28 : BitVec 28)
  /-- SETCLO (R134): format H. -/
  | setclo (imm16 : BitVec 16)
  /-- SETCHI (R135): format H. -/
  | setchi (imm16 : BitVec 16)
  /-- RSTIN (R136). -/
  | rstin
  /-- RSTOUT (R137). -/
  | rstout
  /-- DECPX (R172). -/
  | decpx
  /-- ENCPX (R210). -/
  | encpx
  /-- COORD (R250). -/
  | coord
  /-- RDPIX (R260). -/
  | rdpix
  /-- WRPIX (R262). -/
  | wrpix
  /-- LOAD (R280). -/
  | load
  /-- SAVE (R285). -/
  | save
  /-- Any word that names no command (R109): `OP` 0xF, or a reserved bit set. It is an instruction
  because it has an effect, IllegalCommand (R302); it carries the word (log entry 14). -/
  | illegal (word : Word)
deriving DecidableEq, Repr

end Sys2Proof
end

