-- ==== Sys2Proof/WellFormed.lean ====
section
/-! DEFINITION. Which terms of the syntax are commands of the block. -/

namespace Sys2Proof

/-- The operand bits that the mask column of the opcode table fixes to 0, for an operation code
(R102, R103): format Z all of 27:0, format C bits 27:9, format H bits 27:16, formats D and I none.
The reserved code 0xF has no format. -/
def reservedBits (op : Nat) : Word :=
  match op with
  | 1 => 0x0FFFFE00#32
  | 2 => 0#32
  | 3 => 0#32
  | 4 => 0x0FFF0000#32
  | 5 => 0x0FFF0000#32
  | _ => 0x0FFFFFFF#32

/-- A word is illegal when `OP` is 0xF or a reserved bit of its format is not 0 (R109). -/
def illegalWord (w : Word) : Bool :=
  let op := (w >>> 28).toNat
  op == 15 || (w &&& reservedBits op) != 0#32

/-- Every operand is of its field's exact width, so only the row that carries a raw word has a check:
that word must be illegal, or it would be a second name of another command. -/
def Instr.wf : Instr → Bool
  | .nop => true
  | .cfg _ _ _ => true
  | .dim _ _ => true
  | .setidx _ => true
  | .setclo _ => true
  | .setchi _ => true
  | .rstin => true
  | .rstout => true
  | .decpx => true
  | .encpx => true
  | .coord => true
  | .rdpix => true
  | .wrpix => true
  | .load => true
  | .save => true
  | .illegal w => illegalWord w

end Sys2Proof
end

