-- ==== Sys2Proof/Decode.lean ====
section
/-! DEFINITION. Command words to commands and back (R100 to R110). Decoding is total: a word that names
no command is rejected by name, and the rejected word is the command `illegal` (R109, R110). -/

namespace Sys2Proof

/-- `OP = w[31:28]` (R101). -/
def opField (w : Word) : BitVec 4 := w.extractLsb' 28 4

/-- Why a word names no command (R109). -/
inductive DecodeReject where
  /-- `OP` is 0xF. -/
  | reservedOpcode
  /-- A reserved bit of the format is set. -/
  | reservedBit
deriving DecidableEq, Repr

/-- Format Z (R102): bits 27:0 are reserved. -/
def decodeZ (w : Word) (i : Instr) : Except DecodeReject Instr :=
  if w.extractLsb' 0 28 = 0#28 then .ok i else .error .reservedBit

/-- Format C (R102): `FMTV` 3:0, `ORIV` 7:4, `PADV` 8, reserved 27:9. -/
def decodeC (w : Word) : Except DecodeReject Instr :=
  if w.extractLsb' 9 19 = 0#19 then
    .ok (.cfg (w.extractLsb' 0 4) (w.extractLsb' 4 4) (w.extractLsb' 8 1))
  else .error .reservedBit

/-- Format D (R102): `WM1` 13:0, `HM1` 27:14. -/
def decodeD (w : Word) : Except DecodeReject Instr :=
  .ok (.dim (w.extractLsb' 0 14) (w.extractLsb' 14 14))

/-- Format I (R102): `IMM28` 27:0. -/
def decodeI (w : Word) : Except DecodeReject Instr :=
  .ok (.setidx (w.extractLsb' 0 28))

/-- Format H (R102): `IMM16` 15:0, reserved 27:16. -/
def decodeH (w : Word) (make : BitVec 16 → Instr) : Except DecodeReject Instr :=
  if w.extractLsb' 16 12 = 0#12 then .ok (make (w.extractLsb' 0 16)) else .error .reservedBit

/-- The opcode map (R103): the command is selected by `OP` alone, the reserved-bit check follows
(R110). -/
def decodeCommand (w : Word) : Except DecodeReject Instr :=
  match (opField w).toNat with
  | 0x0 => decodeZ w .nop
  | 0x1 => decodeC w
  | 0x2 => decodeD w
  | 0x3 => decodeI w
  | 0x4 => decodeH w .setclo
  | 0x5 => decodeH w .setchi
  | 0x6 => decodeZ w .rstin
  | 0x7 => decodeZ w .rstout
  | 0x8 => decodeZ w .decpx
  | 0x9 => decodeZ w .encpx
  | 0xA => decodeZ w .coord
  | 0xB => decodeZ w .rdpix
  | 0xC => decodeZ w .wrpix
  | 0xD => decodeZ w .load
  | 0xE => decodeZ w .save
  | _ => .error .reservedOpcode

/-- Every word is one command with its fields, or illegal (R110). -/
def decode (w : Word) : Instr :=
  match decodeCommand w with
  | .ok i => i
  | .error _ => .illegal w

/-- The word of a command (R102, R103, R120). -/
def encode : Instr → Word
  | .nop => 0x0#4 ++ 0#28
  | .cfg fmtv oriv padv => 0x1#4 ++ (0#19 ++ padv ++ oriv ++ fmtv)
  | .dim wm1 hm1 => 0x2#4 ++ (hm1 ++ wm1)
  | .setidx imm28 => 0x3#4 ++ imm28
  | .setclo imm16 => 0x4#4 ++ (0#12 ++ imm16)
  | .setchi imm16 => 0x5#4 ++ (0#12 ++ imm16)
  | .rstin => 0x6#4 ++ 0#28
  | .rstout => 0x7#4 ++ 0#28
  | .decpx => 0x8#4 ++ 0#28
  | .encpx => 0x9#4 ++ 0#28
  | .coord => 0xA#4 ++ 0#28
  | .rdpix => 0xB#4 ++ 0#28
  | .wrpix => 0xC#4 ++ 0#28
  | .load => 0xD#4 ++ 0#28
  | .save => 0xE#4 ++ 0#28
  | .illegal w => w

/-- The command word that the opcode table's numbering gives: `nbits` bits of `w`, every bit above
them 0. -/
def tableWord (nbits w : Nat) : Word := BitVec.ofNat 32 (w % 2 ^ nbits)

/-- The instruction the decoder reads from a word of the opcode table; a command has 32 bits (R101),
so a longer one is none. -/
def decodeTableWord (nbits w : Nat) : Option Instr :=
  if nbits ≤ 32 then some (decode (tableWord nbits w)) else none

end Sys2Proof
end

