-- ==== Sys2Proof/Config.lean ====
section
/-! DEFINITION. What an implementation of the block fixes (R7), and the free values of the spec. -/

namespace Sys2Proof.Config

/-- `MAX_DIM` (R7): the largest width or height. -/
def maxDim : Nat := 16384

/-- `ETC_BLOCK_BYTES` (R7): bytes of one compressed color block. -/
def etcBlockBytes : Nat := 8

/-- `ETC_ALPHA_BYTES` (R7): bytes of the ETC1A4 alpha table of one block. -/
def etcAlphaBytes : Nat := 8

/-- `PIX_WORDS` (R7): the number of words of PIX. -/
def pixWords : Nat := 2 ^ 28

/-- `TEX_BYTES` (R7): the size of the TEXIN and TEXOUT byte spaces. -/
def texBytes : Nat := 2 ^ 32

/-- Bytes that one call of the block codec takes or gives (R201, R202): the alpha table, if any, and
the color block. -/
def etcBytes : Bool → Nat
  | true => etcAlphaBytes + etcBlockBytes
  | false => etcBlockBytes

/-- The values of the parameter `NIBBLE_ORDER` (R7, R65). The parameter itself is a field of State. -/
inductive NibbleOrder where
  /-- The first nibble of the stream is bits 7:4 of a byte (the default). -/
  | highFirst
  /-- The first nibble of the stream is bits 3:0 of a byte. -/
  | lowFirst
deriving DecidableEq, Repr

/-- `BLOCK_DECODE` (R7, R201, R203): the external block decoder, a parameter about which nothing is
assumed (R204). No body: log entry 2. -/
opaque blockDecode (hasAlpha : Bool) (bytes : Vector Byte (etcBytes hasAlpha)) : Bundle

/-- `BLOCK_ENCODE` (R7, R202, R203): the external block encoder, a parameter about which nothing is
assumed (R204). No body: log entry 2. -/
opaque blockEncode (hasAlpha : Bool) (colors : Bundle) : Vector Byte (etcBytes hasAlpha)

/-- The byte of TEXIN at an address at power-on: an arbitrary value (R331, I6). Log entry 3. -/
opaque texinPowerOn (address : Nat) : Byte

/-- The word of PIX at an address at power-on: an arbitrary value (R331, I6). Log entry 3. -/
opaque pixPowerOn (address : Nat) : Color

/-- The color handed out where `BQ_CNT` is above 16, which R35 excludes and no reachable state has:
an arbitrary value. Log entry 10. -/
opaque bundleBeyond (count : Nat) : Color

end Sys2Proof.Config
end

