-- ==== Sys2Proof/Machine/State.lean ====
section
/-! DEFINITION. The state of the block and of the host's script, as plain data; why a step can stop; reset. -/

namespace Sys2Proof.Machine

/-- A sparse memory: (address, value) pairs with strictly rising addresses, one for every address that
has been written. For 8-bit values this is a list of `Host.Cell`. An unlisted address holds no written
value. -/
abbrev Memory (width : Nat) := List (Nat × BitVec width)

/-- What the host can do between commands (R80), and what R82 says it may not do (the port refuses
those by name). Addresses are typed by their space's width (R60). -/
inductive Interaction where
  /-- Submit one command word (R100). -/
  | command (word : Word)
  /-- Read a register by its number (R20, R40). -/
  | readRegister (number : Nat)
  /-- Write a register: only `IN_LEN`, number 12 (R20, R82). -/
  | writeRegister (number : Nat) (value : Word)
  /-- Read a TEXIN byte. -/
  | readTexin (address : BitVec 32)
  /-- Write a TEXIN byte. -/
  | writeTexin (address : BitVec 32) (value : Byte)
  /-- Read a TEXOUT byte, below `OUT_LEN` only (R82). -/
  | readTexout (address : BitVec 32)
  /-- Write a TEXOUT byte: never allowed (R82). -/
  | writeTexout (address : BitVec 32) (value : Byte)
  /-- Read a PIX word. -/
  | readPix (address : BitVec 28)
  /-- Write a PIX word. -/
  | writePix (address : BitVec 28) (value : Word)
  /-- Assert the reset input (R330). -/
  | reset
deriving DecidableEq, Repr

/-- Everything the spec gives the block (R20, R60, R65), and the host's script. `SW` and `SH` are
derived registers (R25) and have no storage of their own (log entry 11). -/
structure State where
  /-- `FMT` (R21). -/
  fmt : BitVec 4
  /-- `ORI` (R22). -/
  ori : BitVec 4
  /-- `PAD` (R23). -/
  pad : BitVec 1
  /-- `WIDTH` (R24). -/
  width : BitVec 15
  /-- `HEIGHT` (R24). -/
  height : BitVec 15
  /-- `IDX` (R26). -/
  idx : BitVec 28
  /-- `X` (R27). -/
  x : BitVec 32
  /-- `Y` (R27). -/
  y : BitVec 32
  /-- `COLOR` (R28). -/
  color : Color
  /-- `STATUS` (R29). -/
  status : BitVec 8
  /-- `IN_LEN` (R30). -/
  inLen : BitVec 32
  /-- `IN_PTR` (R31). -/
  inPtr : BitVec 32
  /-- `IN_NIB` (R32). -/
  inNib : BitVec 8
  /-- `OUT_LEN` (R33). -/
  outLen : BitVec 32
  /-- `OUT_NIB` (R34). -/
  outNib : BitVec 8
  /-- `BQ_CNT` (R35). -/
  bqCnt : BitVec 5
  /-- `EB_CNT` (R36). -/
  ebCnt : BitVec 4
  /-- `DONE_CNT` (R37). -/
  doneCnt : BitVec 29
  /-- `BQ[0..15]` (R35). -/
  bq : Bundle
  /-- `EB[0..15]` (R36). -/
  eb : Bundle
  /-- TEXIN (R60). -/
  texin : Memory 8
  /-- TEXOUT (R60): the bytes below `OUT_LEN`. -/
  texout : Memory 8
  /-- PIX (R60), addressed in words. -/
  pix : Memory 32
  /-- The parameter `NIBBLE_ORDER` (R7, R65); no step changes it (log entry 1). -/
  nibbleOrder : Config.NibbleOrder
  /-- The model's own: the host's interactions in order (log entry 5). -/
  script : List Interaction
  /-- The model's own: the index into the script (R38, log entry 5). -/
  pos : Nat
  /-- The model's own: what the block gave back to the last interaction (R80, log entry 6). -/
  reply : Option Word
deriving DecidableEq, Repr

/-- Why the model stops with a fault. -/
inductive Fault where
  /-- A command formed a PIX address at or above 2^28, which does not exist (R60). Raised by the PIX
  accesses of RDPIX, WRPIX, LOAD and SAVE. No state with a legal `WIDTH` and `HEIGHT` raises it (R62).
  Safe. -/
  | pixAddress (address : Nat)
deriving DecidableEq, Repr

/-- Why the model gives a case no meaning. -/
inductive Refusal where
  /-- A row of the opcode table that has no meaning yet; raised by `exec` only. Safe. -/
  | notModelled (mnemonic : String)
  /-- An append to a full TEXOUT (R76, I9); raised by the stream writes of ENCPX and SAVE. Safe. -/
  | texoutFull
  /-- The host accesses the block while `BUSY` = 1 (R341, I10); raised by the port. Safe. -/
  | hostWhileBusy
  /-- The host writes a register other than `IN_LEN` (R82); raised by the port. Safe. -/
  | hostWritesRegister (number : Nat)
  /-- The host writes TEXOUT (R82); raised by the port. Safe. -/
  | hostWritesTexout
  /-- The host reads TEXOUT at or above `OUT_LEN` (R82); raised by the port. Safe. -/
  | hostReadsPastTexout (address : Nat)
deriving DecidableEq, Repr

/-- What a command, a stream write or a step gives. -/
abbrev Result := Host.Outcome State Fault Refusal

/-- The block right after reset, with nothing written to the memories and no host (R41, R330, R331).
`BQ` and `EB` are unspecified there; zero is the model's choice (log entry 4). -/
def State.reset : State where
  fmt := 0xF#4
  ori := 0#4
  pad := 1#1
  width := 1#15
  height := 1#15
  idx := 0#28
  x := 0#32
  y := 0#32
  color := 0#32
  status := 0#8
  inLen := 0#32
  inPtr := 0#32
  inNib := 0#8
  outLen := 0#32
  outNib := 0#8
  bqCnt := 0#5
  ebCnt := 0#4
  doneCnt := 0#29
  bq := Vector.replicate 16 0#32
  eb := Vector.replicate 16 0#32
  texin := []
  texout := []
  pix := []
  nibbleOrder := .highFirst
  script := []
  pos := 0
  reply := none

/-! The updates that the operations use: one for each group of fields that changes together. -/

/-- The settings of CFG. -/
def State.setConfig (s : State) (fmt ori : BitVec 4) (pad : BitVec 1) : State :=
  { s with fmt := fmt, ori := ori, pad := pad }

/-- The dimensions of DIM. -/
def State.setDims (s : State) (width height : BitVec 15) : State :=
  { s with width := width, height := height }

/-- `IDX`. -/
def State.setIdx (s : State) (idx : BitVec 28) : State := { s with idx := idx }

/-- `X` and `Y`. -/
def State.setCoord (s : State) (x y : BitVec 32) : State := { s with x := x, y := y }

/-- `COLOR`. -/
def State.setColor (s : State) (color : Color) : State := { s with color := color }

/-- `STATUS`. -/
def State.setStatus (s : State) (status : BitVec 8) : State := { s with status := status }

/-- `IN_LEN`. -/
def State.setInLen (s : State) (inLen : BitVec 32) : State := { s with inLen := inLen }

/-- The input cursor: `IN_PTR` and `IN_NIB`. -/
def State.setInput (s : State) (inPtr : BitVec 32) (inNib : BitVec 8) : State :=
  { s with inPtr := inPtr, inNib := inNib }

/-- `BQ`. -/
def State.setBq (s : State) (bq : Bundle) : State := { s with bq := bq }

/-- `BQ_CNT`. -/
def State.setBqCnt (s : State) (bqCnt : BitVec 5) : State := { s with bqCnt := bqCnt }

/-- TEXOUT and its length `OUT_LEN`. -/
def State.setTexout (s : State) (texout : Memory 8) (outLen : BitVec 32) : State :=
  { s with texout := texout, outLen := outLen }

/-- `OUT_NIB`. -/
def State.setOutNib (s : State) (outNib : BitVec 8) : State := { s with outNib := outNib }

/-- `EB`. -/
def State.setEb (s : State) (eb : Bundle) : State := { s with eb := eb }

/-- `EB_CNT`. -/
def State.setEbCnt (s : State) (ebCnt : BitVec 4) : State := { s with ebCnt := ebCnt }

/-- `DONE_CNT`. -/
def State.setDoneCnt (s : State) (doneCnt : BitVec 29) : State := { s with doneCnt := doneCnt }

/-- TEXIN, which only the host writes (R60). -/
def State.setTexin (s : State) (texin : Memory 8) : State := { s with texin := texin }

/-- PIX. -/
def State.setPix (s : State) (pix : Memory 32) : State := { s with pix := pix }

/-- The position in the script and what the block gave back. -/
def State.setHost (s : State) (pos : Nat) (reply : Option Word) : State :=
  { s with pos := pos, reply := reply }

end Sys2Proof.Machine
end

