-- ==== Sys2Proof/Machine/Flags.lean ====
section
/-! DEFINITION. The fields of STATUS (R29), the error codes (R300 to R302), and the pending-nibble fields of
IN_NIB and OUT_NIB (R32, R34). -/

namespace Sys2Proof.Machine

/-- The errors a command can raise (R300 to R302). -/
inductive ErrorKind where
  /-- `FMT` names no format (R300). -/
  | unsupportedFormat
  /-- `ORI` names no orientation (R301). -/
  | unsupportedOrientation
  /-- The word names no command (R302). -/
  | illegalCommand
deriving DecidableEq, Repr

/-- The code of an error in `STATUS.ERR` (R29). -/
def errorCode : ErrorKind → BitVec 2
  | .unsupportedFormat => 1#2
  | .unsupportedOrientation => 2#2
  | .illegalCommand => 3#2

/-- A register value with bit `k` replaced and every other bit kept. -/
def withBit (v : BitVec 8) (k : Nat) (b : Bool) : BitVec 8 :=
  (v &&& ~~~(1#8 <<< k)) ||| ((BitVec.ofBool b).setWidth 8 <<< k)

/-- `STATUS.BUSY`, bit 0. -/
def State.busy (s : State) : Bool := s.status.getLsbD 0

/-- `STATUS.EOS`, bit 1. -/
def State.eos (s : State) : Bool := s.status.getLsbD 1

/-- `STATUS.INB`, bit 2. -/
def State.inb (s : State) : Bool := s.status.getLsbD 2

/-- `STATUS.ERR`, bits 5:4. -/
def State.err (s : State) : BitVec 2 := s.status.extractLsb' 4 2

/-- The block is halted while `ERR` is not 0 (R304). -/
def State.halted (s : State) : Bool := s.err != 0#2

/-- Write `STATUS.BUSY`. -/
def State.withBusy (s : State) (b : Bool) : State := s.setStatus (withBit s.status 0 b)

/-- Write `STATUS.EOS`. -/
def State.withEos (s : State) (b : Bool) : State := s.setStatus (withBit s.status 1 b)

/-- Write `STATUS.INB`. -/
def State.withInb (s : State) (b : Bool) : State := s.setStatus (withBit s.status 2 b)

/-- Write `STATUS.ERR`. -/
def State.withErr (s : State) (code : BitVec 2) : State :=
  s.setStatus ((s.status &&& 0xCF#8) ||| (code.setWidth 8 <<< 4))

/-- The bits of STATUS that are fields; bits 7:6 and 3 read as 0 (R29). -/
def statusFields : BitVec 8 := 0x37#8

/-- The bits of IN_NIB and OUT_NIB that are fields; bits 3:1 read as 0 (R32, R34). -/
def nibFields : BitVec 8 := 0xF1#8

/-- `NPEND`, bit 0 of a nibble register (R32, R34). -/
def nibPending (v : BitVec 8) : Bool := v.getLsbD 0

/-- `NVAL`, bits 7:4 of a nibble register (R32, R34). -/
def nibValue (v : BitVec 8) : Nibble := v.extractLsb' 4 4

/-- A nibble register holding one pending nibble: `NVAL`, three zeros, `NPEND` = 1 (R72, R74). -/
def nibHolding (n : Nibble) : BitVec 8 := n ++ 0#3 ++ 1#1

end Sys2Proof.Machine
end

