-- ==== Sys2Proof/Machine/Operands.lean ====
section
/-! DEFINITION. What operand and register codes stand for: formats, orientations, dimensions (R104 to R106);
colors and their channels (R12); the numeric conversions of the channels (R211, R235); nibble order (R65). -/

namespace Sys2Proof.Machine

/-- The 14 pixel formats (R104). -/
inductive Format where
  | rgba8888
  | rgb888
  | rgba5551
  | rgb565
  | rgba4444
  | la88
  | hl88
  | l8
  | a8
  | la44
  | l4
  | a4
  | etc1
  | etc1a4
deriving DecidableEq, Repr

/-- The format that a code of `FMT` names; 14 and 15 name none (R104). -/
def formatOf (code : BitVec 4) : Option Format :=
  match code.toNat with
  | 0 => some .rgba8888
  | 1 => some .rgb888
  | 2 => some .rgba5551
  | 3 => some .rgb565
  | 4 => some .rgba4444
  | 5 => some .la88
  | 6 => some .hl88
  | 7 => some .l8
  | 8 => some .a8
  | 9 => some .la44
  | 10 => some .l4
  | 11 => some .a4
  | 12 => some .etc1
  | 13 => some .etc1a4
  | _ => none

/-- The 4 orientations (R105). -/
inductive Orientation where
  | default
  | transposeTile
  | rotate90
  | transpose
deriving DecidableEq, Repr

/-- The orientation that a code of `ORI` names; every code but 0, 1, 4 and 8 names none (R105). -/
def orientationOf (code : BitVec 4) : Option Orientation :=
  match code.toNat with
  | 0 => some .default
  | 1 => some .transposeTile
  | 4 => some .rotate90
  | 8 => some .transpose
  | _ => none

/-- A dimension from its "minus one" field: 1 to 16384 (R106). -/
def dimension (minusOne : BitVec 14) : BitVec 15 := minusOne.setWidth 15 + 1#15

/-! Colors (R12). -/

/-- `argb(a, r, g, b)`: the packed color. -/
def argb (a r g b : Byte) : Color := a ++ r ++ g ++ b

/-- `c.A`, bits 31:24. -/
def chanA (c : Color) : Byte := c.extractLsb' 24 8

/-- `c.R`, bits 23:16. -/
def chanR (c : Color) : Byte := c.extractLsb' 16 8

/-- `c.G`, bits 15:8. -/
def chanG (c : Color) : Byte := c.extractLsb' 8 8

/-- `c.B`, bits 7:0. -/
def chanB (c : Color) : Byte := c.extractLsb' 0 8

/-- `COLOR` with its low half replaced (R108, R134). -/
def withLowHalf (c : Color) (half : BitVec 16) : Color := c.extractLsb' 16 16 ++ half

/-- `COLOR` with its high half replaced (R108, R135). -/
def withHighHalf (c : Color) (half : BitVec 16) : Color := half ++ c.extractLsb' 0 16

/-! Expansion of a field to a channel (R235): exact integer arithmetic, truncating. -/

/-- 1-bit field: `v * 255`. -/
def expand1 (v : BitVec 1) : Byte := BitVec.ofNat 8 (v.toNat * 255)

/-- 4-bit field: `v * 17`. -/
def expand4 (v : Nibble) : Byte := BitVec.ofNat 8 (v.toNat * 17)

/-- 5-bit field: `(v * 33) / 4`. -/
def expand5 (v : BitVec 5) : Byte := BitVec.ofNat 8 (v.toNat * 33 / 4)

/-- 6-bit field: `(v * 65) / 16`. -/
def expand6 (v : BitVec 6) : Byte := BitVec.ofNat 8 (v.toNat * 65 / 16)

/-! Down-conversion of a channel to a field (R211): integer division, remainder discarded. -/

/-- `c / 128`, one bit. -/
def narrow1 (c : Byte) : BitVec 1 := BitVec.ofNat 1 (c.toNat / 128)

/-- `c / 16`, four bits. -/
def narrow4 (c : Byte) : Nibble := BitVec.ofNat 4 (c.toNat / 16)

/-- `c / 8`, five bits. -/
def narrow5 (c : Byte) : BitVec 5 := BitVec.ofNat 5 (c.toNat / 8)

/-- `c / 4`, six bits. -/
def narrow6 (c : Byte) : BitVec 6 := BitVec.ofNat 6 (c.toNat / 4)

/-! The 16-bit pixel words. -/

/-- The color of an RGBA5551 word `{R5, G5, B5, A1}` (R182). -/
def unpack5551 (s : BitVec 16) : Color :=
  argb (expand1 (s.extractLsb' 0 1)) (expand5 (s.extractLsb' 11 5))
    (expand5 (s.extractLsb' 6 5)) (expand5 (s.extractLsb' 1 5))

/-- The color of an RGB565 word `{R5, G6, B5}`; alpha is 255 (R183, R170). -/
def unpack565 (s : BitVec 16) : Color :=
  argb 255#8 (expand5 (s.extractLsb' 11 5)) (expand6 (s.extractLsb' 5 6))
    (expand5 (s.extractLsb' 0 5))

/-- The RGBA5551 word of a color (R222). -/
def pack5551 (c : Color) : BitVec 16 :=
  narrow5 (chanR c) ++ narrow5 (chanG c) ++ narrow5 (chanB c) ++ narrow1 (chanA c)

/-- The RGB565 word of a color (R223). -/
def pack565 (c : Color) : BitVec 16 :=
  narrow5 (chanR c) ++ narrow6 (chanG c) ++ narrow5 (chanB c)

/-! Nibble order (R65). -/

/-- The first and the second nibble of the stream in a byte. -/
def splitByte (order : Config.NibbleOrder) (b : Byte) : Nibble × Nibble :=
  match order with
  | .highFirst => (b.extractLsb' 4 4, b.extractLsb' 0 4)
  | .lowFirst => (b.extractLsb' 0 4, b.extractLsb' 4 4)

/-- The byte of a first and a second nibble of the stream. -/
def joinNibbles (order : Config.NibbleOrder) (first second : Nibble) : Byte :=
  match order with
  | .highFirst => first ++ second
  | .lowFirst => second ++ first

end Sys2Proof.Machine
end

