-- ==== Sys2Proof/Machine/Ops.lean ====
section
/-! DEFINITION. The shared operations: sparse memory, sequencing, raising an error, the stream primitives of
R70 to R76, and the PIX accesses. -/

namespace Sys2Proof.Machine

/-! Sparse memory. -/

/-- The value written at an address, if any. -/
def Memory.read? {width : Nat} : Memory width → Nat → Option (BitVec width)
  | [], _ => none
  | (b, v) :: rest, a => if a = b then some v else Memory.read? rest a

/-- The memory with a value written at an address; the canonical form is kept. -/
def Memory.write {width : Nat} : Memory width → Nat → BitVec width → Memory width
  | [], a, v => [(a, v)]
  | (b, u) :: rest, a, v =>
    if a < b then (a, v) :: (b, u) :: rest
    else if a = b then (a, v) :: rest
    else (b, u) :: Memory.write rest a v

/-- The addresses listed, in order. -/
def Memory.addresses {width : Nat} (m : Memory width) : List Nat := m.map Prod.fst

/-- Every address is at least `from` and below `size`, and they rise strictly. -/
def Memory.risingFrom {width : Nat} (size : Nat) : Nat → Memory width → Bool
  | _, [] => true
  | low, (a, _) :: rest => decide (low ≤ a) && decide (a < size) && Memory.risingFrom size (a + 1) rest

/-- The canonical form: addresses rise strictly and lie in the space. -/
def Memory.wf {width : Nat} (size : Nat) (m : Memory width) : Bool := Memory.risingFrom size 0 m

/-! Sequencing. -/

/-- Go on with the next state; a fault or a refusal ends the command. -/
def andThen (r : Result) (k : State → Result) : Result :=
  match r with
  | .next s => k s
  | .fault f => .fault f
  | .refused q => .refused q

/-! Errors. -/

/-- `raise E` (R303): set `STATUS.ERR` and end the command with no other effect. Nothing is saved and
nothing is transferred (R308); there is no return but reset (R309). -/
def raise (e : ErrorKind) (s : State) : Result := .next (s.withErr (errorCode e))

/-- Go on with the orientation that `ORI` names, or raise UnsupportedOrientation (R301). -/
def withOrientation (s : State) (k : Orientation → Result) : Result :=
  match orientationOf s.ori with
  | some o => k o
  | none => raise .unsupportedOrientation s

/-- Go on with the format that `FMT` names, or raise UnsupportedFormat (R300). -/
def withFormat (s : State) (k : Format → Result) : Result :=
  match formatOf s.fmt with
  | some f => k f
  | none => raise .unsupportedFormat s

/-! Input stream. -/

/-- `TexRead(a)` (R11): the byte of TEXIN at an address. A byte that nothing has written is the
power-on byte, a free value (R331). -/
def texRead (s : State) (a : Nat) : Byte := (s.texin.read? a).getD (Config.texinPowerOn a)

/-- `avail` (R31): the bytes available to the decoder. -/
def avail (s : State) : Nat := s.inLen.toNat - s.inPtr.toNat

/-- `IN_NPEND` as a count of nibbles (R171). -/
def pendingNibbles (s : State) : Nat := if nibPending s.inNib then 1 else 0

/-- `rdByte()` (R70): a pending nibble is dropped. -/
def rdByte (s : State) : Byte × State :=
  (texRead s s.inPtr.toNat, s.setInput (s.inPtr + 1#32) 0#8)

/-- `rdWord16()` (R71): little-endian. -/
def rdWord16 (s : State) : BitVec 16 × State :=
  let lo := rdByte s
  let hi := rdByte lo.2
  (hi.1 ++ lo.1, hi.2)

/-- `rdNib()` (R72): the pending nibble, or the first of the next byte. -/
def rdNib (s : State) : Nibble × State :=
  if nibPending s.inNib then
    (nibValue s.inNib, s.setInput s.inPtr 0#8)
  else
    let pair := splitByte s.nibbleOrder (texRead s s.inPtr.toNat)
    (pair.1, s.setInput (s.inPtr + 1#32) (nibHolding pair.2))

/-! Output stream. -/

/-- `TexAppend(b)` (R76): write at `OUT_LEN` and advance it; a full TEXOUT is refused. -/
def texAppend (b : Byte) (s : State) : Result :=
  if s.outLen = 0xFFFFFFFF#32 then .refused .texoutFull
  else .next (s.setTexout (s.texout.write s.outLen.toNat b) (s.outLen + 1#32))

/-- The flush of R73: a pending nibble goes out as a byte whose other half is 0. -/
def flushNib (s : State) : Result :=
  if nibPending s.outNib then
    andThen (texAppend (joinNibbles s.nibbleOrder (nibValue s.outNib) 0#4) s)
      fun t => .next (t.setOutNib 0#8)
  else .next s

/-- `wrByte(b)` (R73). -/
def wrByte (b : Byte) (s : State) : Result := andThen (flushNib s) (texAppend b)

/-- `wrNib(v)` (R74). -/
def wrNib (v : Nibble) (s : State) : Result :=
  if nibPending s.outNib then
    andThen (texAppend (joinNibbles s.nibbleOrder (nibValue s.outNib) v) s)
      fun t => .next (t.setOutNib 0#8)
  else .next (s.setOutNib (nibHolding v))

/-- `wrWord16(s)` (R75): little-endian. -/
def wrWord16 (w : BitVec 16) (s : State) : Result :=
  andThen (wrByte (w.extractLsb' 0 8) s) (wrByte (w.extractLsb' 8 8))

/-- Write bytes in order. -/
def wrBytes : List Byte → State → Result
  | [], s => .next s
  | b :: rest, s => andThen (wrByte b s) (wrBytes rest)

/-- Write nibbles in order. -/
def wrNibs : List Nibble → State → Result
  | [], s => .next s
  | v :: rest, s => andThen (wrNib v s) (wrNibs rest)

/-! Pixel buffer. -/

/-- The color that PIX holds at an address. A word that nothing has written is the power-on word, a
free value (R331). -/
def pixAt (s : State) (a : Nat) : Color := (s.pix.read? a).getD (Config.pixPowerOn a)

/-- Go on with `PixRead(a)` (R11); an address outside PIX faults (R60). -/
def pixRead (s : State) (a : Nat) (k : Color → Result) : Result :=
  if a < Config.pixWords then k (pixAt s a) else .fault (.pixAddress a)

/-- `PixWrite(a, v)` (R11); an address outside PIX faults (R60). -/
def pixWrite (s : State) (a : Nat) (v : Color) : Result :=
  if a < Config.pixWords then .next (s.setPix (s.pix.write a v)) else .fault (.pixAddress a)

end Sys2Proof.Machine
end

