-- ==== Sys2Proof/Machine/Control.lean ====
section
/-! DEFINITION. The configuration and stream-control commands (R130 to R137), and the illegal word (R109, R302). -/

namespace Sys2Proof.Machine

/-- NOP (R130). -/
def execNop (s : State) : Result := .next s

/-- CFG (R131): any code is stored; the command that uses it checks it. -/
def execCfg (fmtv oriv : BitVec 4) (padv : BitVec 1) (s : State) : Result :=
  .next (s.setConfig fmtv oriv padv)

/-- DIM (R132). -/
def execDim (wm1 hm1 : BitVec 14) (s : State) : Result :=
  .next (s.setDims (dimension wm1) (dimension hm1))

/-- SETIDX (R133). -/
def execSetidx (imm28 : BitVec 28) (s : State) : Result := .next (s.setIdx imm28)

/-- SETCLO (R134). -/
def execSetclo (imm16 : BitVec 16) (s : State) : Result :=
  .next (s.setColor (withLowHalf s.color imm16))

/-- SETCHI (R135). -/
def execSetchi (imm16 : BitVec 16) (s : State) : Result :=
  .next (s.setColor (withHighHalf s.color imm16))

/-- A fresh input stream: what RSTIN (R136) and the start of LOAD (R280) do. -/
def rewindInput (s : State) : State := ((s.setInput 0#32 0#8).setBqCnt 0#5).withEos false

/-- A fresh output stream: what RSTOUT (R137) and the start of SAVE (R285) do. TEXOUT is empty. -/
def emptyOutput (s : State) : State := ((s.setTexout [] 0#32).setOutNib 0#8).setEbCnt 0#4

/-- RSTIN (R136). -/
def execRstin (s : State) : Result := .next (rewindInput s)

/-- RSTOUT (R137). -/
def execRstout (s : State) : Result := .next (emptyOutput s)

/-- A word that names no command: IllegalCommand, whatever the word (R109, R302). -/
def execIllegal (_word : Word) (s : State) : Result := raise .illegalCommand s

end Sys2Proof.Machine
end

