-- ==== Sys2Proof/Machine/PixelCodec.lean ====
section
/-! DEFINITION. The pixel-format codec: decoding and encoding one pixel in each of the 14 formats, the
block-codec port, DECPX and ENCPX (R170 to R237). -/

namespace Sys2Proof.Machine

/-! Decoding. -/

/-- `hasInput(f)` (R171): the input holds one whole pixel. -/
def hasInput (f : Format) (s : State) : Bool :=
  match f with
  | .rgba8888 => decide (4 ≤ avail s)
  | .rgb888 => decide (3 ≤ avail s)
  | .rgba5551 => decide (2 ≤ avail s)
  | .rgb565 => decide (2 ≤ avail s)
  | .la88 => decide (2 ≤ avail s)
  | .hl88 => decide (2 ≤ avail s)
  | .l8 => decide (1 ≤ avail s)
  | .a8 => decide (1 ≤ avail s)
  | .rgba4444 => decide (4 ≤ pendingNibbles s + 2 * avail s)
  | .la44 => decide (2 ≤ pendingNibbles s + 2 * avail s)
  | .l4 => decide (1 ≤ pendingNibbles s + 2 * avail s)
  | .a4 => decide (1 ≤ pendingNibbles s + 2 * avail s)
  | .etc1 => decide (0 < s.bqCnt.toNat ∨ 8 ≤ avail s)
  | .etc1a4 => decide (0 < s.bqCnt.toNat ∨ 16 ≤ avail s)

/-- The bytes of one compressed block at the input cursor (R173). -/
def blockBytes (hasAlpha : Bool) (s : State) : Vector Byte (Config.etcBytes hasAlpha) :=
  Vector.ofFn fun k => texRead s (s.inPtr.toNat + k.val)

/-- The refill of R173: one block is read whole and decoded through the port (R200, R201). -/
def refillBundle (hasAlpha : Bool) (s : State) : State :=
  ((s.setInput (s.inPtr + BitVec.ofNat 32 (Config.etcBytes hasAlpha)) 0#8).setBq
    (Config.blockDecode hasAlpha (blockBytes hasAlpha s))).setBqCnt 16#5

/-- `BQ[16 - BQ_CNT]` (R35). A count above 16 names no entry: a free value (log entry 10). -/
def nextOfBundle (s : State) : Color :=
  if s.bqCnt.toNat ≤ 16 then s.bq.toList.getD (16 - s.bqCnt.toNat) 0#32
  else Config.bundleBeyond s.bqCnt.toNat

/-- `etcNext(hasAlpha)` (R173). -/
def etcNext (hasAlpha : Bool) (s : State) : Color × State :=
  let t := if s.bqCnt = 0#5 then refillBundle hasAlpha s else s
  (nextOfBundle t, t.setBqCnt (t.bqCnt - 1#5))

/-- `decodePixel(f)` (R170, R180 to R193): the color, with every channel the format does not define
255, and the state with the cursor and the bundle advanced. -/
def decodePixel (f : Format) (s : State) : Color × State :=
  match f with
  | .rgba8888 =>
    let a := rdByte s
    let b := rdByte a.2
    let g := rdByte b.2
    let r := rdByte g.2
    (argb a.1 r.1 g.1 b.1, r.2)
  | .rgb888 =>
    let b := rdByte s
    let g := rdByte b.2
    let r := rdByte g.2
    (argb 255#8 r.1 g.1 b.1, r.2)
  | .rgba5551 =>
    let w := rdWord16 s
    (unpack5551 w.1, w.2)
  | .rgb565 =>
    let w := rdWord16 s
    (unpack565 w.1, w.2)
  | .rgba4444 =>
    let a := rdNib s
    let b := rdNib a.2
    let g := rdNib b.2
    let r := rdNib g.2
    (argb (expand4 a.1) (expand4 r.1) (expand4 g.1) (expand4 b.1), r.2)
  | .la88 =>
    let a := rdByte s
    let gray := rdByte a.2
    (argb a.1 gray.1 gray.1 gray.1, gray.2)
  | .hl88 =>
    let g := rdByte s
    let r := rdByte g.2
    (argb 255#8 r.1 g.1 255#8, r.2)
  | .l8 =>
    let gray := rdByte s
    (argb 255#8 gray.1 gray.1 gray.1, gray.2)
  | .a8 =>
    let a := rdByte s
    (argb a.1 255#8 255#8 255#8, a.2)
  | .la44 =>
    let a := rdNib s
    let gray := rdNib a.2
    (argb (expand4 a.1) (expand4 gray.1) (expand4 gray.1) (expand4 gray.1), gray.2)
  | .l4 =>
    let gray := rdNib s
    (argb 255#8 (expand4 gray.1) (expand4 gray.1) (expand4 gray.1), gray.2)
  | .a4 =>
    let a := rdNib s
    (argb (expand4 a.1) 255#8 255#8 255#8, a.2)
  | .etc1 =>
    let c := etcNext false s
    (argb 255#8 (chanR c.1) (chanG c.1) (chanB c.1), c.2)
  | .etc1a4 =>
    let c := etcNext true s
    (argb (chanA c.1) (chanR c.1) (chanG c.1) (chanB c.1), c.2)

/-- DECPX (R172): format check, then the input check, then one pixel into `COLOR`. -/
def execDecpx (s : State) : Result :=
  withFormat s fun f =>
    if hasInput f s then
      let p := decodePixel f s
      .next (p.2.setColor p.1)
    else .next (s.withEos true)

/-! Encoding. -/

/-- `EB` with one entry replaced (R214). -/
def collect (s : State) (c : Color) : Bundle :=
  Vector.ofFn fun k => if k.val = s.ebCnt.toNat then c else s.eb[k]

/-- `etcPut(hasAlpha, c)` (R214): collect the color; the 16th encodes the bundle through the port
(R200, R202) and writes the block's bytes. -/
def etcPut (hasAlpha : Bool) (c : Color) (s : State) : Result :=
  let t := s.setEb (collect s c)
  if s.ebCnt.toNat < 15 then .next (t.setEbCnt (s.ebCnt + 1#4))
  else
    andThen (wrBytes (Config.blockEncode hasAlpha t.eb).toList t) fun u => .next (u.setEbCnt 0#4)

/-- `encodePixel(f, c)` (R210, R220 to R233); a channel the format does not store is ignored (R170). -/
def encodePixel (f : Format) (c : Color) (s : State) : Result :=
  match f with
  | .rgba8888 => wrBytes [chanA c, chanB c, chanG c, chanR c] s
  | .rgb888 => wrBytes [chanB c, chanG c, chanR c] s
  | .rgba5551 => wrWord16 (pack5551 c) s
  | .rgb565 => wrWord16 (pack565 c) s
  | .rgba4444 =>
    wrNibs [narrow4 (chanA c), narrow4 (chanB c), narrow4 (chanG c), narrow4 (chanR c)] s
  | .la88 => wrBytes [chanA c, chanG c] s
  | .hl88 => wrBytes [chanG c, chanR c] s
  | .l8 => wrBytes [chanG c] s
  | .a8 => wrBytes [chanA c] s
  | .la44 => wrNibs [narrow4 (chanA c), narrow4 (chanG c)] s
  | .l4 => wrNibs [narrow4 (chanG c)] s
  | .a4 => wrNibs [narrow4 (chanA c)] s
  | .etc1 => etcPut false c s
  | .etc1a4 => etcPut true c s

/-- ENCPX (R210): format check, then `COLOR` into the output. -/
def execEncpx (s : State) : Result := withFormat s fun f => encodePixel f s.color s

end Sys2Proof.Machine
end

