-- ==== Sys2Proof/Machine/TileAddress.lean ====
section
/-! DEFINITION. The tile address generator (R240 to R257), COORD, and the pixel-buffer commands RDPIX and WRPIX
(R260, R262). Counts and coordinates are exact natural numbers (R8). -/

namespace Sys2Proof.Machine

/-- `ceil8(v)` (R10): the least multiple of 8 not below `v`. -/
def ceil8 (v : Nat) : Nat := (v + 7) / 8 * 8

/-- Double `p` until it is not below `v`, at most `fuel` times. -/
def doubleUpTo (v : Nat) : Nat → Nat → Nat
  | 0, p => p
  | fuel + 1, p => if v ≤ p then p else doubleUpTo v fuel (2 * p)

/-- `npow2(v)` (R10): the least power of two not below `v`. `v` doublings of 1 are always enough. -/
def npow2 (v : Nat) : Nat := doubleUpTo v v 1

/-- The stride of a dimension (R241). -/
def strideOf (pad : BitVec 1) (dim : Nat) : Nat :=
  if pad = 1#1 then npow2 (ceil8 dim) else ceil8 dim

/-- `SW` (R25, R241). -/
def State.sw (s : State) : Nat := strideOf s.pad s.width.toNat

/-- `SH` (R25, R241). -/
def State.sh (s : State) : Nat := strideOf s.pad s.height.toNat

/-- `N` (R242): the length of the coordinate sequence. -/
def seqLength (s : State) : Nat := s.sw * s.sh

/-- The stride of an orientation (R243). -/
def strideFor (s : State) (o : Orientation) : Nat :=
  match o with
  | .default => s.sw
  | .transposeTile => s.sw
  | .rotate90 => s.sh
  | .transpose => s.sh

/-- `x_in` (R245): index bits 4, 2, 0. -/
def mortonX (i : Nat) : Nat := ((i >>> 2) &&& 4) ||| ((i >>> 1) &&& 2) ||| (i &&& 1)

/-- `y_in` (R245): index bits 5, 3, 1. -/
def mortonY (i : Nat) : Nat := ((i >>> 3) &&& 4) ||| ((i >>> 2) &&& 2) ||| ((i >>> 1) &&& 1)

/-- `x_out` (R244): the tile column times 8. -/
def tileX (stride i : Nat) : Nat := (i >>> 6) % (stride / 8) * 8

/-- `y_out` (R244): the tile row times 8. -/
def tileY (stride i : Nat) : Nat := (i >>> 6) / (stride / 8) * 8

/-- The final coordinate of an orientation (R246). -/
def tileCoord (o : Orientation) (stride i : Nat) : Nat × Nat :=
  match o with
  | .default => (tileX stride i + mortonX i, tileY stride i + mortonY i)
  | .transposeTile => (tileX stride i + mortonY i, tileY stride i + mortonX i)
  | .rotate90 => (tileY stride i + mortonY i, stride - 1 - (tileX stride i + mortonX i))
  | .transpose => (tileY stride i + mortonY i, tileX stride i + mortonX i)

/-- `coordOf(i)` (R247). -/
def coordOf (s : State) (o : Orientation) (i : Nat) : Nat × Nat := tileCoord o (strideFor s o) i

/-- The pixel `(x, y)` lies inside `WIDTH × HEIGHT`. -/
def inBounds (s : State) (xy : Nat × Nat) : Bool :=
  decide (xy.1 < s.width.toNat) && decide (xy.2 < s.height.toNat)

/-- `pixaddr(x, y)` (R62). -/
def pixAddr (s : State) (xy : Nat × Nat) : Nat := xy.2 * s.width.toNat + xy.1

/-- The coordinate clamped into the buffer (R260). -/
def clamp (s : State) (xy : Nat × Nat) : Nat × Nat :=
  (min xy.1 (s.width.toNat - 1), min xy.2 (s.height.toNat - 1))

/-- Go on with the pixel at the clamped coordinate: RDPIX (R260) and SAVE (R285). -/
def samplePixel (s : State) (xy : Nat × Nat) (k : Color → Result) : Result :=
  pixRead s (pixAddr s (clamp s xy)) k

/-- Write a pixel inside the buffer, discard it outside: WRPIX (R262) and LOAD (R280). -/
def storePixel (s : State) (xy : Nat × Nat) (c : Color) : Result :=
  if inBounds s xy then pixWrite s (pixAddr s xy) c else .next s

/-- COORD (R250). -/
def execCoord (s : State) : Result :=
  withOrientation s fun o =>
    let xy := coordOf s o s.idx.toNat
    .next ((s.setCoord (BitVec.ofNat 32 xy.1) (BitVec.ofNat 32 xy.2)).withInb (inBounds s xy))

/-- RDPIX (R260). -/
def execRdpix (s : State) : Result :=
  samplePixel s (s.x.toNat, s.y.toNat) fun c => .next (s.setColor c)

/-- WRPIX (R262): it tests the bounds itself and does not read `STATUS.INB`. -/
def execWrpix (s : State) : Result := storePixel s (s.x.toNat, s.y.toNat) s.color

end Sys2Proof.Machine
end

