-- ==== Sys2Proof/Machine/Pipeline.lean ====
section
/-! DEFINITION. The conversion sequencer: LOAD and SAVE (R280 to R288). The sequencer's index, coordinate and
color are its own and no register holds them (R281, R286). -/

namespace Sys2Proof.Machine

/-- The loop of LOAD (R280) from index `i`, with the given number of indices left. `n` of R280 equals
the index, since each pass adds 1 to both. -/
def loadLoop (f : Format) (o : Orientation) : Nat → Nat → State → Result
  | 0, i, s => .next (s.setDoneCnt (BitVec.ofNat 29 i))
  | left + 1, i, s =>
    if hasInput f s then
      let p := decodePixel f s
      andThen (storePixel p.2 (coordOf s o i) p.1) (loadLoop f o left (i + 1))
    else .next ((s.withEos true).setDoneCnt (BitVec.ofNat 29 i))

/-- LOAD (R280): orientation check, format check, a fresh input stream, the loop over all `N` indices. -/
def execLoad (s : State) : Result :=
  withOrientation s fun o =>
    withFormat s fun f => loadLoop f o (seqLength s) 0 (rewindInput s)

/-- The loop of SAVE (R285) from index `i`, with the given number of indices left. -/
def saveLoop (f : Format) (o : Orientation) : Nat → Nat → State → Result
  | 0, i, s => .next (s.setDoneCnt (BitVec.ofNat 29 i))
  | left + 1, i, s =>
    samplePixel s (coordOf s o i) fun c =>
      andThen (encodePixel f c s) (saveLoop f o left (i + 1))

/-- SAVE (R285): orientation check, format check, a fresh output stream, the loop over all `N` indices. -/
def execSave (s : State) : Result :=
  withOrientation s fun o =>
    withFormat s fun f => saveLoop f o (seqLength s) 0 (emptyOutput s)

end Sys2Proof.Machine
end

