-- ==== Sys2Proof/Machine/Dispatch.lean ====
section
/-! DEFINITION. Which meaning each command has. -/

namespace Sys2Proof.Machine

def exec (i : Instr) (s : State) : Host.Outcome State Fault Refusal :=
  match i with
  | .nop => Sys2Proof.Machine.execNop s
  | .cfg fmtv oriv padv => Sys2Proof.Machine.execCfg fmtv oriv padv s
  | .dim wm1 hm1 => Sys2Proof.Machine.execDim wm1 hm1 s
  | .setidx imm28 => Sys2Proof.Machine.execSetidx imm28 s
  | .setclo imm16 => Sys2Proof.Machine.execSetclo imm16 s
  | .setchi imm16 => Sys2Proof.Machine.execSetchi imm16 s
  | .rstin => Sys2Proof.Machine.execRstin s
  | .rstout => Sys2Proof.Machine.execRstout s
  | .decpx => Sys2Proof.Machine.execDecpx s
  | .encpx => Sys2Proof.Machine.execEncpx s
  | .coord => Sys2Proof.Machine.execCoord s
  | .rdpix => Sys2Proof.Machine.execRdpix s
  | .wrpix => Sys2Proof.Machine.execWrpix s
  | .load => Sys2Proof.Machine.execLoad s
  | .save => Sys2Proof.Machine.execSave s
  | .illegal word => Sys2Proof.Machine.execIllegal word s

end Sys2Proof.Machine
end

