-- ==== Sys2Proof/Machine/Port.lean ====
section
/-! DEFINITION. The command port and the host port (R80, R100, R304, R330): what each interaction of the host does.
The interactions stand in the script; the port takes them one at a time, between commands. -/

namespace Sys2Proof.Machine

/-- The interaction is over: the index moves on by one (R38), and the host holds what the block gave
back (R80). -/
def State.advance (s : State) (reply : Option Word) : State := s.setHost (s.pos + 1) reply

/-- `BUSY` is set when the port accepts a command (R29). -/
def State.accept (s : State) : State := (s.advance none).withBusy true

/-- `BUSY` is cleared when the command completes (R29). -/
def State.complete (s : State) : State := s.withBusy false

/-- One word offered at the command port. While a command runs the host waits (R100). A halted block
accepts every word and ignores it (R304). Otherwise the word's command runs to completion. -/
def submit (w : Word) (s : State) : Result :=
  if s.busy then .next s
  else if s.halted then .next (s.advance none)
  else andThen (exec (decode w) s.accept) fun t => .next t.complete

/-- The value of a register by its number (R20); an unknown number reads 0 (R40), and so do the bits
of STATUS, IN_NIB and OUT_NIB that are no field (R29, R32, R34). -/
def registerValue (s : State) (number : Nat) : Word :=
  match number with
  | 0 => s.fmt.setWidth 32
  | 1 => s.ori.setWidth 32
  | 2 => s.pad.setWidth 32
  | 3 => s.width.setWidth 32
  | 4 => s.height.setWidth 32
  | 5 => (BitVec.ofNat 15 s.sw).setWidth 32
  | 6 => (BitVec.ofNat 15 s.sh).setWidth 32
  | 7 => s.idx.setWidth 32
  | 8 => s.x
  | 9 => s.y
  | 10 => s.color
  | 11 => (s.status &&& statusFields).setWidth 32
  | 12 => s.inLen
  | 13 => s.inPtr
  | 14 => (s.inNib &&& nibFields).setWidth 32
  | 15 => s.outLen
  | 16 => (s.outNib &&& nibFields).setWidth 32
  | 17 => s.bqCnt.setWidth 32
  | 18 => s.ebCnt.setWidth 32
  | 19 => s.doneCnt.setWidth 32
  | _ => 0#32

/-- RESET (R330): every register takes its reset value; TEXIN and PIX are unchanged, TEXOUT is empty.
The parameter, the script and the position are not the block's to reset. -/
def resetBlock (s : State) : State :=
  { State.reset with
    texin := s.texin, pix := s.pix, nibbleOrder := s.nibbleOrder,
    script := s.script, pos := s.pos, reply := s.reply }

/-- The host reads one byte of TEXOUT; at or above `OUT_LEN` it is refused (R82). -/
def readTexout (a : Nat) (s : State) : Result :=
  if a < s.outLen.toNat then
    match s.texout.read? a with
    | some b => .next (s.advance (some (b.setWidth 32)))
    | none => .refused (.hostReadsPastTexout a)
  else .refused (.hostReadsPastTexout a)

/-- The host writes a register: `IN_LEN` (number 12), and no other (R81, R82). -/
def writeRegister (number : Nat) (v : Word) (s : State) : Result :=
  if number = 12 then .next ((s.setInLen v).advance none) else .refused (.hostWritesRegister number)

/-- A host access other than a command is refused while `BUSY` = 1 (R341, I10). -/
def whenIdle (s : State) (r : Result) : Result := if s.busy then .refused .hostWhileBusy else r

/-- One interaction of the host (R80 to R82). -/
def interact (h : Interaction) (s : State) : Result :=
  match h with
  | .command w => submit w s
  | .readRegister n => whenIdle s (.next (s.advance (some (registerValue s n))))
  | .writeRegister n v => whenIdle s (writeRegister n v s)
  | .readTexin a => whenIdle s (.next (s.advance (some ((texRead s a.toNat).setWidth 32))))
  | .writeTexin a b =>
    whenIdle s (.next ((s.setTexin (s.texin.write a.toNat b)).advance none))
  | .readTexout a => whenIdle s (readTexout a.toNat s)
  | .writeTexout _ _ => whenIdle s (.refused .hostWritesTexout)
  | .readPix a => whenIdle s (.next (s.advance (some (pixAt s a.toNat))))
  | .writePix a v => whenIdle s (.next ((s.setPix (s.pix.write a.toNat v)).advance none))
  | .reset => whenIdle s (.next ((resetBlock s).advance none))

/-- The next interaction of the host, or an idle block, which keeps all its state (R316). -/
def portStep (s : State) : Result :=
  match s.script[s.pos]? with
  | some h => interact h s
  | none => .next s

/-- The script with a command word placed where the next step takes it. -/
def offerNext (w : Word) (s : State) : State :=
  let k := min s.pos s.script.length
  { s with script := s.script.take k ++ .command w :: s.script.drop k, pos := k }

end Sys2Proof.Machine
end

