-- ==== Sys2Proof/Machine/Step.lean ====
section
/-! DEFINITION. One step of the machine: the block's port takes the host's next interaction. -/

namespace Sys2Proof.Machine

/-- One step (R80, R85, R100): one interaction of the host, a command among them, done whole. -/
def step (s : State) : Host.Outcome State Fault Refusal := portStep s

/-- The state with one command word, numbered as the opcode table numbers it, where the next step
takes its command: at the current position of the host's script (log entry 5). -/
def State.withFetchWord (s : State) (nbits w : Nat) : State := offerNext (tableWord nbits w) s

end Sys2Proof.Machine
end

