-- ==== Sys2Proof/Safety.lean ====
section
/-! DEFINITION. What a legal state of the block is, in the terms the statements use. -/

namespace Sys2Proof.Machine

/-- `WIDTH` and `HEIGHT` are from 1 to `MAX_DIM` (R24). -/
abbrev State.legalDims (s : State) : Prop :=
  1 ≤ s.width.toNat ∧ s.width.toNat ≤ Config.maxDim ∧ 1 ≤ s.height.toNat ∧
    s.height.toNat ≤ Config.maxDim

/-- A nibble register has no bit outside its fields, and nothing at all when nothing is pending
(R32, R34, I15). -/
abbrev nibLegal (v : BitVec 8) : Prop :=
  v &&& ~~~nibFields = 0#8 ∧ (nibPending v = false → v = 0#8)

/-- The registers hold what their rules allow (R24, R27, R29, R32, R34, R35, R37), and no command is
running. -/
abbrev State.legalRegisters (s : State) : Prop :=
  s.legalDims ∧ s.x.toNat < 2 ^ 25 ∧ s.y.toNat < 2 ^ 25 ∧ s.status &&& ~~~statusFields = 0#8 ∧
    s.busy = false ∧ nibLegal s.inNib ∧ nibLegal s.outNib ∧ s.bqCnt.toNat ≤ 16 ∧
    s.doneCnt.toNat ≤ 2 ^ 28

/-- The memories are in canonical form and inside their spaces (R60), and TEXOUT holds exactly the
bytes below `OUT_LEN` (R33). -/
abbrev State.legalMemories (s : State) : Prop :=
  s.texin.wf Config.texBytes = true ∧ s.pix.wf Config.pixWords = true ∧
    s.texout.addresses = List.range s.outLen.toNat

/-- A legal state: what holds right after reset, and what every step keeps. -/
abbrev State.legal (s : State) : Prop := s.legalRegisters ∧ s.legalMemories

end Sys2Proof.Machine
end

