-- ==== Sys2Proof/Certificates/Slice0/Obligations.lean ====
section
/-! DEFINITION. The statements for the provers, `def Obligations.<Name> : Prop`, and the spec's tables in the
statements' own words (`Sys2Proof.Claims`). -/

open Sys2Proof Sys2Proof.Machine

namespace Sys2Proof.Claims

/-! ### The port -/

/-- The host's next interaction. -/
abbrev offers (s : State) (h : Interaction) : Prop := s.script[s.pos]? = some h

/-- No command runs (`BUSY` = 0) and the block is not halted (`ERR` = 0). -/
abbrev ready (s : State) : Prop := s.busy = false ∧ s.err = 0#2

/-- The interaction is over and the host holds its reply; nothing of the block changes. -/
def done (s : State) (reply : Option Word) : State := { s with pos := s.pos + 1, reply := reply }

/-- `ERR` is the code, every other bit of STATUS as before. -/
def failed (s : State) (code : BitVec 8) : State :=
  { s with status := (s.status &&& 0xCF#8) ||| (code <<< 4) }

/-- Commands in order, each on the state the one before it left. -/
def runAll : List Instr → State → Result
  | [], s => .next s
  | i :: rest, s =>
    match exec i s with
    | .next t => runAll rest t
    | .fault f => .fault f
    | .refused r => .refused r

/-! ### Encoding -/

/-- The reserved bits of R102, format by format: Z is all of 27:0, C is 27:9, H is 27:16. -/
def reservedBitSet (w : Word) : Prop :=
  let op := (w.extractLsb' 28 4).toNat
  ((op = 0 ∨ 6 ≤ op ∧ op ≤ 14) ∧ w.extractLsb' 0 28 ≠ 0#28) ∨
    (op = 1 ∧ w.extractLsb' 9 19 ≠ 0#19) ∨
    ((op = 4 ∨ op = 5) ∧ w.extractLsb' 16 12 ≠ 0#12)

/-! ### Input -/

/-- `avail` of R31. -/
def available (s : State) : Nat :=
  if s.inPtr.toNat ≤ s.inLen.toNat then s.inLen.toNat - s.inPtr.toNat else 0

/-- `IN_NPEND` of R32 as a number. -/
def inPending (s : State) : Nat := (s.inNib.extractLsb' 0 1).toNat

/-- R171, format by format: the input lacks a whole pixel. -/
abbrev lacksPixel (s : State) : Prop :=
  let nibbles := inPending s + 2 * available s
  (s.fmt = 0#4 ∧ available s < 4) ∨ (s.fmt = 1#4 ∧ available s < 3) ∨
    ((s.fmt = 2#4 ∨ s.fmt = 3#4 ∨ s.fmt = 5#4 ∨ s.fmt = 6#4) ∧ available s < 2) ∨
    ((s.fmt = 7#4 ∨ s.fmt = 8#4) ∧ available s < 1) ∨
    (s.fmt = 4#4 ∧ nibbles < 4) ∨ (s.fmt = 9#4 ∧ nibbles < 2) ∨
    ((s.fmt = 10#4 ∨ s.fmt = 11#4) ∧ nibbles < 1) ∨
    (s.fmt = 12#4 ∧ s.bqCnt = 0#5 ∧ available s < 8) ∨
    (s.fmt = 13#4 ∧ s.bqCnt = 0#5 ∧ available s < 16)

/-- Byte `k` of the input from the cursor on. -/
def byteAt (s : State) (k : Nat) : Byte := texRead s (s.inPtr.toNat + k)

/-- The formats made of whole bytes (R180, R181, R185 to R188): how many bytes a pixel has and, from
the bytes `b 0`, `b 1`, … of the stream, its color `{A, R, G, B}`. -/
def wholeByteColor (fmt : BitVec 4) (b : Nat → Byte) : Option (Nat × Color) :=
  if fmt = 0#4 then some (4, b 0 ++ b 3 ++ b 2 ++ b 1)
  else if fmt = 1#4 then some (3, 255#8 ++ b 2 ++ b 1 ++ b 0)
  else if fmt = 5#4 then some (2, b 0 ++ b 1 ++ b 1 ++ b 1)
  else if fmt = 6#4 then some (2, 255#8 ++ b 1 ++ b 0 ++ 255#8)
  else if fmt = 7#4 then some (1, 255#8 ++ b 0 ++ b 0 ++ b 0)
  else if fmt = 8#4 then some (1, b 0 ++ 255#8 ++ 255#8 ++ 255#8)
  else none

/-- A channel from a number that fits 8 bits. -/
def channel (n : Nat) : Byte := BitVec.ofNat 8 n

/-- The 16-bit formats (R182, R183): the color of the word `{byte 1, byte 0}`. -/
def packedColor (fmt : BitVec 4) (b : Nat → Byte) : Option Color :=
  let w : Nat := (b 0).toNat + 256 * (b 1).toNat
  if fmt = 2#4 then
    some (channel (w % 2 * 255) ++ channel (w / 2048 % 32 * 33 / 4) ++
      channel (w / 64 % 32 * 33 / 4) ++ channel (w / 2 % 32 * 33 / 4))
  else if fmt = 3#4 then
    some (255#8 ++ channel (w / 2048 % 32 * 33 / 4) ++ channel (w / 32 % 64 * 65 / 16) ++
      channel (w % 32 * 33 / 4))
  else none

/-- Nibble `j` of the bytes from the cursor on, in the order of `NIBBLE_ORDER` (R65). -/
def freshNibble (s : State) (j : Nat) : Nat :=
  let b := (byteAt s (j / 2)).toNat
  match s.nibbleOrder with
  | .highFirst => if j % 2 = 0 then b / 16 else b % 16
  | .lowFirst => if j % 2 = 0 then b % 16 else b / 16

/-- Nibble `k` of the stream: the pending nibble first, if there is one (R72). -/
def streamNibble (s : State) (k : Nat) : Nat :=
  if inPending s = 1 then (if k = 0 then s.inNib.toNat / 16 else freshNibble s (k - 1))
  else freshNibble s k

/-- The nibble formats (R184, R189 to R191): how many nibbles a pixel has, and its color. -/
def nibbleColor (fmt : BitVec 4) (v : Nat → Nat) : Option (Nat × Color) :=
  let c := fun k => channel (v k * 17)
  if fmt = 4#4 then some (4, c 0 ++ c 3 ++ c 2 ++ c 1)
  else if fmt = 9#4 then some (2, c 0 ++ c 1 ++ c 1 ++ c 1)
  else if fmt = 10#4 then some (1, 255#8 ++ c 0 ++ c 0 ++ c 0)
  else if fmt = 11#4 then some (1, c 0 ++ 255#8 ++ 255#8 ++ 255#8)
  else none

/-- The cursor after `n` nibbles have been read (R72): `fresh` of them came from new bytes; an odd
count leaves the other half of the last byte pending. -/
def afterNibbles (s : State) (n : Nat) : BitVec 32 × BitVec 8 :=
  let fresh := n - inPending s
  (s.inPtr + BitVec.ofNat 32 ((fresh + 1) / 2),
    if fresh % 2 = 1 then BitVec.ofNat 8 (16 * freshNibble s fresh + 1) else 0#8)

/-! ### Output -/

/-- `n` more bytes fit into TEXOUT (R76). -/
abbrev roomFor (s : State) (n : Nat) : Prop := s.outLen.toNat + n < 2 ^ 32

/-- `t` is `s` with the bytes `out` appended to TEXOUT and `OUT_NIB` = `nib`; every other field, and
every other byte of TEXOUT, is as before. -/
def appends (s t : State) (out : List Byte) (nib : BitVec 8) : Prop :=
  t = { s with
    texout := t.texout, outLen := s.outLen + BitVec.ofNat 32 out.length, outNib := nib } ∧
  (∀ k (h : k < out.length), t.texout.read? (s.outLen.toNat + k) = some out[k]) ∧
  (∀ a, a < s.outLen.toNat ∨ s.outLen.toNat + out.length ≤ a →
    t.texout.read? a = s.texout.read? a)

/-- The byte of two nibbles of the stream (R65). -/
def byteOf (order : Config.NibbleOrder) (first second : Nat) : Byte :=
  match order with
  | .highFirst => channel (16 * first + second)
  | .lowFirst => channel (16 * second + first)

/-- The pending output nibble (R34), as a list. -/
def outPending (s : State) : List Nat :=
  if s.outNib.extractLsb' 0 1 = 1#1 then [s.outNib.toNat / 16] else []

/-- The flush of R73: a pending nibble is a byte whose other half is 0. -/
def flushed (s : State) : List Byte := (outPending s).map fun v => byteOf s.nibbleOrder v 0

/-- `OUT_NIB` after a whole-byte write (R73): a pending nibble is gone, else nothing is touched. -/
def nibAfterBytes (s : State) : BitVec 8 :=
  if s.outNib.extractLsb' 0 1 = 1#1 then 0#8 else s.outNib

/-- Alpha, of the channels of a color (R12). -/
def alpha (c : Color) : Nat := c.toNat / 2 ^ 24

/-- Red. -/
def red (c : Color) : Nat := c.toNat / 2 ^ 16 % 256

/-- Green. -/
def green (c : Color) : Nat := c.toNat / 2 ^ 8 % 256

/-- Blue. -/
def blue (c : Color) : Nat := c.toNat % 256

/-- The bytes of a color in the formats made of whole bytes (R220, R221, R225 to R228). -/
def wholeBytes (fmt : BitVec 4) (c : Color) : Option (List Nat) :=
  if fmt = 0#4 then some [alpha c, blue c, green c, red c]
  else if fmt = 1#4 then some [blue c, green c, red c]
  else if fmt = 5#4 then some [alpha c, green c]
  else if fmt = 6#4 then some [green c, red c]
  else if fmt = 7#4 then some [green c]
  else if fmt = 8#4 then some [alpha c]
  else none

/-- The 16-bit word of a color in the packed formats (R222, R223). -/
def packedWord (fmt : BitVec 4) (c : Color) : Option Nat :=
  if fmt = 2#4 then
    some (red c / 8 * 2048 + green c / 8 * 64 + blue c / 8 * 2 + alpha c / 128)
  else if fmt = 3#4 then some (red c / 8 * 2048 + green c / 4 * 32 + blue c / 8)
  else none

/-- The nibbles of a color in the nibble formats (R224, R229 to R231). -/
def nibblesOf (fmt : BitVec 4) (c : Color) : Option (List Nat) :=
  if fmt = 4#4 then some [alpha c / 16, blue c / 16, green c / 16, red c / 16]
  else if fmt = 9#4 then some [alpha c / 16, green c / 16]
  else if fmt = 10#4 then some [green c / 16]
  else if fmt = 11#4 then some [alpha c / 16]
  else none

/-- Nibbles paired into bytes (R74): the bytes, and `OUT_NIB` with the odd one pending. -/
def paired (order : Config.NibbleOrder) : List Nat → List Byte × BitVec 8
  | first :: second :: rest =>
    (byteOf order first second :: (paired order rest).1, (paired order rest).2)
  | [last] => ([], BitVec.ofNat 8 (16 * last + 1))
  | [] => ([], 0#8)

/-! ### Generator -/

/-- Index bit `k` as a number. -/
def bit (i k : Nat) : Nat := i / 2 ^ k % 2

/-- `x_in` (R245): index bits 4, 2, 0. -/
def inTileX (i : Nat) : Nat := 4 * bit i 4 + 2 * bit i 2 + bit i 0

/-- `y_in` (R245): index bits 5, 3, 1. -/
def inTileY (i : Nat) : Nat := 4 * bit i 5 + 2 * bit i 3 + bit i 1

/-- The strides `SW` and `SH` as a host reads them exactly (R25, R241). -/
def stride (s : State) (o : Orientation) : Nat :=
  match o with
  | .default | .transposeTile => s.sw
  | .rotate90 | .transpose => s.sh

/-- The generator (R243 to R247). -/
def coordinate (s : State) (o : Orientation) (i : Nat) : Nat × Nat :=
  let n := stride s o
  let xOut := i / 64 % (n / 8) * 8
  let yOut := i / 64 / (n / 8) * 8
  match o with
  | .default => (xOut + inTileX i, yOut + inTileY i)
  | .transposeTile => (xOut + inTileY i, yOut + inTileX i)
  | .rotate90 => (yOut + inTileY i, n - 1 - (xOut + inTileX i))
  | .transpose => (yOut + inTileY i, xOut + inTileX i)

/-- The code of an orientation (R105). -/
def orientationCode : Orientation → BitVec 4
  | .default => 0#4
  | .transposeTile => 1#4
  | .rotate90 => 4#4
  | .transpose => 8#4

/-- `ORI` names no orientation (R301). -/
abbrev badOrientation (s : State) : Prop :=
  s.ori ≠ 0#4 ∧ s.ori ≠ 1#4 ∧ s.ori ≠ 4#4 ∧ s.ori ≠ 8#4

/-- `FMT` names no format (R300). -/
abbrev badFormat (s : State) : Prop := s.fmt = 14#4 ∨ s.fmt = 15#4

/-- `INB` is 1 exactly when the coordinate is inside `WIDTH × HEIGHT`; other STATUS bits as before. -/
def withInside (s : State) (xy : Nat × Nat) : BitVec 8 :=
  (s.status &&& 0xFB#8) |||
    (if xy.1 < s.width.toNat ∧ xy.2 < s.height.toNat then 0x04#8 else 0#8)

/-! ### Conversions -/

/-- The code of a format (R104). -/
def formatCode : Format → BitVec 4
  | .rgba8888 => 0#4
  | .rgb888 => 1#4
  | .rgba5551 => 2#4
  | .rgb565 => 3#4
  | .rgba4444 => 4#4
  | .la88 => 5#4
  | .hl88 => 6#4
  | .l8 => 7#4
  | .a8 => 8#4
  | .la44 => 9#4
  | .l4 => 10#4
  | .a4 => 11#4
  | .etc1 => 12#4
  | .etc1a4 => 13#4

/-- Bits per pixel (R104); on average for the ETC formats. -/
def bitsPerPixel : Format → Nat
  | .rgba8888 => 32
  | .rgb888 => 24
  | .rgba5551 | .rgb565 | .rgba4444 | .la88 | .hl88 => 16
  | .l8 | .a8 | .la44 | .etc1a4 => 8
  | .l4 | .a4 | .etc1 => 4

/-- How many whole pixels an input of `len` bytes holds (R284): for the ETC formats whole blocks of
16 pixels. -/
def pixelsHeld (f : Format) (len : Nat) : Nat :=
  match f with
  | .etc1 => 16 * (len / 8)
  | .etc1a4 => 16 * (len / 16)
  | _ => 8 * len / bitsPerPixel f

/-- The settings of a conversion name a format and an orientation, and the dimensions are legal. -/
abbrev settings (s : State) (f : Format) (o : Orientation) : Prop :=
  s.fmt = formatCode f ∧ s.ori = orientationCode o ∧ s.legalDims

/-- `pixaddr(x, y)` (R62). -/
def address (s : State) (xy : Nat × Nat) : Nat := xy.2 * s.width.toNat + xy.1

/-- The pixel lies inside the buffer. -/
abbrev inside (s : State) (xy : Nat × Nat) : Prop := xy.1 < s.width.toNat ∧ xy.2 < s.height.toNat

/-- The coordinate clamped into the buffer (R260). -/
def clamped (s : State) (xy : Nat × Nat) : Nat × Nat :=
  (min xy.1 (s.width.toNat - 1), min xy.2 (s.height.toNat - 1))

/-- Nibble `i` of TEXIN, in the order of `NIBBLE_ORDER` (R65). -/
def texinNibble (s : State) (i : Nat) : Nat :=
  freshNibble { s with inPtr := BitVec.ofNat 32 (i / 2) } (i % 2)

/-- Color `i % 16` of the block that holds pixel `i`, the blocks one after another from byte 0 (R173,
R201). -/
def blockColor (s : State) (hasAlpha : Bool) (i : Nat) : Color :=
  let bytes := Vector.ofFn fun k : Fin (Config.etcBytes hasAlpha) =>
    texRead s (i / 16 * Config.etcBytes hasAlpha + k.val)
  (Config.blockDecode hasAlpha bytes)[i % 16]'(Nat.mod_lt i (by decide))

/-- The color of pixel `i` of the stream that starts at TEXIN byte 0 (R86). L4 and A4 have two pixels
in a byte (R190, R191), the ETC formats 16 in a block (R192, R193); in every other format pixel `i`
starts at byte `i` × bits / 8. -/
def streamColor (s : State) (f : Format) (i : Nat) : Color :=
  match f with
  | .l4 =>
    let gray := channel (texinNibble s i * 17)
    255#8 ++ gray ++ gray ++ gray
  | .a4 => channel (texinNibble s i * 17) ++ 255#8 ++ 255#8 ++ 255#8
  | .etc1 => 255#8 ++ (blockColor s false i).extractLsb' 0 24
  | .etc1a4 => blockColor s true i
  | _ =>
    (decodePixel f { s with inPtr := BitVec.ofNat 32 (bitsPerPixel f / 8 * i), inNib := 0#8 }).1

/-- `LOADSTEP i` (R120). -/
def loadStep (i : Nat) : List Instr := [.setidx (BitVec.ofNat 28 i), .coord, .decpx, .wrpix]

/-- `SAVESTEP i` (R120). -/
def saveStep (i : Nat) : List Instr := [.setidx (BitVec.ofNat 28 i), .coord, .rdpix, .encpx]

/-- One `DECPX` and `ENCPX`, twice for the formats with two pixels in a byte (R236). -/
def roundTrip (f : Format) : List Instr :=
  match f with
  | .l4 | .a4 => [.decpx, .encpx, .decpx, .encpx]
  | _ => [.decpx, .encpx]

/-- Bytes of the input that `roundTrip` reads. -/
def roundTripBytes (f : Format) : Nat :=
  match f with
  | .l4 | .a4 => 1
  | _ => bitsPerPixel f / 8

end Sys2Proof.Claims

open Sys2Proof.Claims

/-! ### Encoding -/

/-- R101 to R103: decoding the word of a well-formed command gives the command back, operands and all. -/
def Obligations.DecodeOfEncodeIsTheCommand : Prop :=
  ∀ i : Instr, i.wf = true → decode (encode i) = i

/-- R110: every word decodes to one well-formed command, whose word it is. -/
def Obligations.EveryWordIsTheWordOfItsCommand : Prop :=
  ∀ w : Word, (decode w).wf = true ∧ encode (decode w) = w

/-- From R302 (with R109 and R303): a word is illegal exactly when `OP` is 0xF or a reserved bit is set.
The command port then sets `ERR` to 3 and changes nothing else of the block, whatever `FMT` and `ORI`
hold. That the step moves the position on by 1 and leaves no reply, and that `BUSY` is set and cleared
within it, is the model's own (log entries 5, 6, 7). -/
def Obligations.IllegalWordsRaiseIllegalCommand : Prop :=
  (∀ w v : Word, decode w = .illegal v ↔
    v = w ∧ (w.extractLsb' 28 4 = 0xF#4 ∨ reservedBitSet w)) ∧
  (∀ (w : Word) (s : State), exec (.illegal w) s = .next (failed s 3#8)) ∧
  (∀ (w : Word) (s : State), offers s (.command w) → ready s →
    (w.extractLsb' 28 4 = 0xF#4 ∨ reservedBitSet w) → step s = .next (done (failed s 3#8) none))

/-- Sanity: words that the spec writes out in R120 and in its illegal-encoding vectors decode as it
says. -/
def Obligations.SpecWordsDecode : Prop :=
  decode 0x10000143#32 = .cfg 3#4 4#4 1#1 ∧ decode 0x2001C00F#32 = .dim 15#14 7#14 ∧
  decode 0x30000002#32 = .setidx 2#28 ∧ decode 0x40001234#32 = .setclo 0x1234#16 ∧
  decode 0x5000FFF8#32 = .setchi 0xFFF8#16 ∧ decode 0x80000000#32 = .decpx ∧
  decode 0xA0000000#32 = .coord ∧ decode 0xD0000000#32 = .load ∧
  decode 0x10000207#32 = .illegal 0x10000207#32 ∧ decode 0xFFFFFFFF#32 = .illegal 0xFFFFFFFF#32

/-! ### The step, the port and the host -/

/-- A step runs the decoded command. With a command word next, no command running and the block not
halted, the step is `exec` of the decoded command on the state with the interaction taken and `BUSY`
set (R29), and `BUSY` is cleared when it completes. The script and the reply are the model's own
(log entries 5, 6, 7). -/
def Obligations.StepRunsTheDecodedCommand : Prop :=
  ∀ (s : State) (w : Word), offers s (.command w) → ready s →
    step s =
      match exec (decode w) { done s none with status := s.status ||| 0x01#8 } with
      | .next t => .next { t with status := t.status &&& 0xFE#8 }
      | .fault f => .fault f
      | .refused r => .refused r

/-- From R304: a halted block accepts every word and ignores it, host reads still work, and only reset
leaves the halted state or changes `ERR`. That an ignored word moves the position on by 1 and leaves no
reply is the model's (log entries 24 and 6), and so are the position and the reply after a read (log
entries 5, 6). -/
def Obligations.HaltedBlockIgnoresEveryWord : Prop :=
  ∀ s : State, s.busy = false → s.err ≠ 0#2 →
    (∀ w, offers s (.command w) → step s = .next (done s none)) ∧
    (∀ n, offers s (.readRegister n) → step s = .next (done s (some (registerValue s n)))) ∧
    (∀ a, offers s (.readTexin a) →
      step s = .next (done s (some ((texRead s a.toNat).setWidth 32)))) ∧
    (∀ a, offers s (.readPix a) → step s = .next (done s (some (pixAt s a.toNat)))) ∧
    (∀ a b, offers s (.readTexout a) → a.toNat < s.outLen.toNat →
      s.texout.read? a.toNat = some b → step s = .next (done s (some (b.setWidth 32)))) ∧
    (∀ h t, offers s h → step s = .next t → t.err = s.err ∨ h = .reset)

/-- With no interaction left the block is idle and keeps all its state (R316). That a step is an idle
step here is the model's choice (log entry 5). -/
def Obligations.IdleBlockKeepsItsState : Prop :=
  ∀ s : State, s.script[s.pos]? = none → step s = .next s

/-- While `BUSY` = 1 a command word waits (R100) and every other access is refused (R341, I10). No
legal state is busy; what such a state does is the model's choice (log entry 7). -/
def Obligations.BusyBlockTakesNothing : Prop :=
  ∀ s : State, s.busy = true →
    (∀ w, offers s (.command w) → step s = .next s) ∧
    (∀ h, offers s h → (∀ w, h ≠ .command w) → step s = .refused .hostWhileBusy)

/-- R41: on reset every register takes its value, at power-on and by the reset input of an idle block.
The bundles are unspecified and nothing is said of them. -/
def Obligations.ResetGivesEveryRegisterItsValue : Prop :=
  let atReset := fun t : State =>
    t.fmt = 0xF#4 ∧ t.ori = 0#4 ∧ t.pad = 1#1 ∧ t.width = 1#15 ∧ t.height = 1#15 ∧ t.sw = 8 ∧
    t.sh = 8 ∧ t.idx = 0#28 ∧ t.x = 0#32 ∧ t.y = 0#32 ∧ t.color = 0#32 ∧ t.status = 0#8 ∧
    t.inLen = 0#32 ∧ t.inPtr = 0#32 ∧ t.inNib = 0#8 ∧ t.outLen = 0#32 ∧ t.outNib = 0#8 ∧
    t.texout = [] ∧ t.bqCnt = 0#5 ∧ t.ebCnt = 0#4 ∧ t.doneCnt = 0#29
  atReset State.reset ∧
    ∀ s : State, offers s .reset → s.busy = false → ∃ t, step s = .next t ∧ atReset t

/-- R330, R331: the reset input leaves TEXIN and PIX as they were, empties TEXOUT, and leaves the
parameter `NIBBLE_ORDER` alone; halted or not, the block is not halted after it. That the script goes
on is the model's choice (log entry 5). -/
def Obligations.ResetKeepsTheHostsMemories : Prop :=
  ∀ s : State, offers s .reset → s.busy = false → ∃ t, step s = .next t ∧
    t.texin = s.texin ∧ t.pix = s.pix ∧ t.texout = [] ∧ t.nibbleOrder = s.nibbleOrder ∧
    t.err = 0#2 ∧ t.script = s.script ∧ t.pos = s.pos + 1

/-- A host read of register `n` gives back the value at that number (`registerValue`, which
RegistersByNumberAndByWriter spells out from R20), halted or not; from number 20 on that is 0 (R40). No
host read, of a register or of a memory, changes anything of the block. That the read moves the
position on and leaves its value in `reply` is the model's own (log entries 5, 6). -/
def Obligations.HostReadsHaveNoSideEffect : Prop :=
  (∀ (s : State) (n : Nat), offers s (.readRegister n) → s.busy = false →
    step s = .next (done s (some (registerValue s n)))) ∧
  (∀ (s : State) (n : Nat), 20 ≤ n → registerValue s n = 0#32) ∧
  ∀ (s t : State) (h : Interaction), offers s h →
    ((∃ n, h = .readRegister n) ∨ (∃ a, h = .readTexin a) ∨ (∃ a, h = .readTexout a) ∨
      ∃ a, h = .readPix a) →
    step s = .next t → ∃ v, t = done s (some v)

/-- R20 (with R29, R32 and R34 for the bits that read as 0): what the host reads at each number, and
which commands write each register. A write of the value that stands there changes nothing. -/
def Obligations.RegistersByNumberAndByWriter : Prop :=
  (∀ (s : State),
    registerValue s 0 = s.fmt.setWidth 32 ∧ registerValue s 1 = s.ori.setWidth 32 ∧
    registerValue s 2 = s.pad.setWidth 32 ∧ registerValue s 3 = s.width.setWidth 32 ∧
    registerValue s 4 = s.height.setWidth 32 ∧
    (s.legalDims → (registerValue s 5).toNat = s.sw ∧ (registerValue s 6).toNat = s.sh) ∧
    registerValue s 7 = s.idx.setWidth 32 ∧ registerValue s 8 = s.x ∧ registerValue s 9 = s.y ∧
    registerValue s 10 = s.color ∧ registerValue s 11 = (s.status &&& 0x37#8).setWidth 32 ∧
    registerValue s 12 = s.inLen ∧ registerValue s 13 = s.inPtr ∧
    registerValue s 14 = (s.inNib &&& 0xF1#8).setWidth 32 ∧ registerValue s 15 = s.outLen ∧
    registerValue s 16 = (s.outNib &&& 0xF1#8).setWidth 32 ∧
    registerValue s 17 = s.bqCnt.setWidth 32 ∧ registerValue s 18 = s.ebCnt.setWidth 32 ∧
    registerValue s 19 = s.doneCnt.setWidth 32) ∧
  ∀ (i : Instr) (s t : State), exec i s = .next t →
    ((t.fmt ≠ s.fmt ∨ t.ori ≠ s.ori ∨ t.pad ≠ s.pad) → ∃ f o p, i = .cfg f o p) ∧
    ((t.width ≠ s.width ∨ t.height ≠ s.height) → ∃ w h, i = .dim w h) ∧
    ((t.sw ≠ s.sw ∨ t.sh ≠ s.sh) → (∃ w h, i = .dim w h) ∨ ∃ f o p, i = .cfg f o p) ∧
    (t.idx ≠ s.idx → ∃ n, i = .setidx n) ∧
    ((t.x ≠ s.x ∨ t.y ≠ s.y) → i = .coord) ∧
    (t.color ≠ s.color →
      (∃ h, i = .setclo h) ∨ (∃ h, i = .setchi h) ∨ i = .decpx ∨ i = .rdpix) ∧
    (t.eos ≠ s.eos → i = .rstin ∨ i = .decpx ∨ i = .load) ∧ (t.inb ≠ s.inb → i = .coord) ∧
    t.busy = s.busy ∧ t.status &&& 0xC8#8 = s.status &&& 0xC8#8 ∧ t.inLen = s.inLen ∧
    ((t.inPtr ≠ s.inPtr ∨ t.inNib ≠ s.inNib ∨ t.bqCnt ≠ s.bqCnt) →
      i = .rstin ∨ i = .decpx ∨ i = .load) ∧
    ((t.outLen ≠ s.outLen ∨ t.outNib ≠ s.outNib ∨ t.ebCnt ≠ s.ebCnt) →
      i = .rstout ∨ i = .encpx ∨ i = .save) ∧
    (t.doneCnt ≠ s.doneCnt → i = .load ∨ i = .save) ∧
    (t.bq ≠ s.bq → i = .decpx ∨ i = .load) ∧ (t.eb ≠ s.eb → i = .encpx ∨ i = .save)

/-- R60: no command writes TEXIN; only ENCPX and SAVE, and RSTOUT by emptying it, change TEXOUT; only
WRPIX and LOAD change PIX. No command touches `NIBBLE_ORDER` or the host's script, position and reply
(the last three are the model's own, log entries 1, 5, 6). -/
def Obligations.MemoriesByWriter : Prop :=
  ∀ (i : Instr) (s t : State), exec i s = .next t →
    t.texin = s.texin ∧ (t.texout ≠ s.texout → i = .rstout ∨ i = .encpx ∨ i = .save) ∧
    (t.pix ≠ s.pix → i = .wrpix ∨ i = .load) ∧ t.nibbleOrder = s.nibbleOrder ∧
    t.script = s.script ∧ t.pos = s.pos ∧ t.reply = s.reply

/-- From R80, R81: what the host writes it reads back, every other address reads as before, and no other
field of the block changes; a TEXOUT byte below `OUT_LEN` is given back. That each access moves the
position on by 1, and that what it gives back, or nothing, stands in `reply`, is the model's own (log
entries 5, 6). -/
def Obligations.HostWritesAndReadsMemories : Prop :=
  ∀ s : State, s.busy = false →
    (∀ a b, offers s (.writeTexin a b) → ∃ t, step s = .next t ∧
      t = { done s none with texin := t.texin } ∧ texRead t a.toNat = b ∧
      ∀ k, k ≠ a.toNat → texRead t k = texRead s k) ∧
    (∀ a v, offers s (.writePix a v) → ∃ t, step s = .next t ∧
      t = { done s none with pix := t.pix } ∧ pixAt t a.toNat = v ∧
      ∀ k, k ≠ a.toNat → pixAt t k = pixAt s k) ∧
    (∀ v, offers s (.writeRegister 12 v) → step s = .next { done s none with inLen := v }) ∧
    (∀ a, offers s (.readTexin a) →
      step s = .next (done s (some ((texRead s a.toNat).setWidth 32)))) ∧
    (∀ a, offers s (.readPix a) → step s = .next (done s (some (pixAt s a.toNat)))) ∧
    (∀ a, offers s (.readTexout a) → s.legalMemories → a.toNat < s.outLen.toNat →
      ∃ b, s.texout.read? a.toNat = some b ∧ step s = .next (done s (some (b.setWidth 32))))

/-- R82: the host may not write TEXOUT, write a register other than `IN_LEN`, or read TEXOUT at or
above `OUT_LEN`; each is refused. -/
def Obligations.ForbiddenHostAccessesAreRefused : Prop :=
  ∀ s : State, s.busy = false →
    (∀ a b, offers s (.writeTexout a b) → step s = .refused .hostWritesTexout) ∧
    (∀ n v, n ≠ 12 → offers s (.writeRegister n v) →
      step s = .refused (.hostWritesRegister n)) ∧
    (∀ a, s.outLen.toNat ≤ a.toNat → offers s (.readTexout a) →
      step s = .refused (.hostReadsPastTexout a.toNat))

/-! ### Configuration and stream control -/

/-- R130: NOP leaves every register and memory unchanged; with a reserved bit set it is illegal. -/
def Obligations.NopChangesNothing : Prop :=
  encode .nop = 0#32 ∧ decode 0#32 = .nop ∧ (∀ s : State, exec .nop s = .next s) ∧
    ∀ w : Word, w.extractLsb' 28 4 = 0#4 → w ≠ 0#32 → decode w = .illegal w

/-- R131: CFG stores its three fields, any codes, and changes nothing else; `SW` and `SH` follow `PAD`
at once. -/
def Obligations.CfgStoresItsFields : Prop :=
  (∀ (f o : BitVec 4) (p : BitVec 1),
    encode (.cfg f o p) = 0x1#4 ++ (0#19 ++ p ++ o ++ f) ∧
      decode (encode (.cfg f o p)) = .cfg f o p) ∧
  (∀ (f o : BitVec 4) (p : BitVec 1) (s : State), ∃ t, exec (.cfg f o p) s = .next t ∧
    t = { s with fmt := f, ori := o, pad := p } ∧ t.sw = strideOf p s.width.toNat ∧
    t.sh = strideOf p s.height.toNat) ∧
  decode 0x10000007#32 = .cfg 7#4 0#4 0#1

/-- R132: DIM sets both dimensions, each its field plus 1, and changes nothing else; `SW` and `SH`
follow at once, and no PIX word moves. -/
def Obligations.DimSetsBothDimensions : Prop :=
  (∀ wm1 hm1 : BitVec 14,
    encode (.dim wm1 hm1) = 0x2#4 ++ (hm1 ++ wm1) ∧ decode (encode (.dim wm1 hm1)) = .dim wm1 hm1) ∧
  (∀ (wm1 hm1 : BitVec 14) (s : State), ∃ t, exec (.dim wm1 hm1) s = .next t ∧
    t = { s with width := t.width, height := t.height } ∧ t.width.toNat = wm1.toNat + 1 ∧
    t.height.toNat = hm1.toNat + 1 ∧ t.sw = strideOf s.pad (wm1.toNat + 1) ∧
    t.sh = strideOf s.pad (hm1.toNat + 1)) ∧
  decode 0x20010004#32 = .dim 4#14 4#14 ∧ strideOf 1#1 5 = 8

/-- R107: SETIDX sets `IDX` to any 28-bit value, the generator's length or beyond included, and changes
nothing else. -/
def Obligations.SetidxSetsTheIndex : Prop :=
  (∀ n : BitVec 28, decode (0x3#4 ++ n) = .setidx n) ∧
    ∀ (n : BitVec 28) (s : State), exec (.setidx n) s = .next { s with idx := n }

/-- R134, R135: SETCLO and SETCHI replace one half of `COLOR` and keep the other; nothing else
changes. With a bit of 27:16 set their words are illegal. -/
def Obligations.SetcloAndSetchiReplaceHalves : Prop :=
  (∀ h : BitVec 16, decode (0x4#4 ++ (0#12 ++ h)) = .setclo h ∧
    decode (0x5#4 ++ (0#12 ++ h)) = .setchi h) ∧
  (∀ w : Word, (w.extractLsb' 28 4 = 4#4 ∨ w.extractLsb' 28 4 = 5#4) →
    w.extractLsb' 16 12 ≠ 0#12 → decode w = .illegal w) ∧
  ∀ (h : BitVec 16) (s : State),
    exec (.setclo h) s = .next { s with color := s.color.extractLsb' 16 16 ++ h } ∧
    exec (.setchi h) s = .next { s with color := h ++ s.color.extractLsb' 0 16 }

/-- R136: RSTIN rewinds the input, empties the decode bundle and clears `EOS`; `IN_LEN`, TEXIN and all
else are unchanged. -/
def Obligations.RstinRewindsTheInput : Prop :=
  decode 0x60000000#32 = .rstin ∧
    ∀ s : State, exec .rstin s = .next
      { s with inPtr := 0#32, inNib := 0#8, bqCnt := 0#5, status := s.status &&& 0xFD#8 }

/-- R137: RSTOUT empties TEXOUT and discards a pending nibble and a partial bundle; nothing else
changes. -/
def Obligations.RstoutEmptiesTheOutput : Prop :=
  decode 0x70000000#32 = .rstout ∧
    ∀ s : State, ∃ t, exec .rstout s = .next t ∧
      t = { s with texout := t.texout, outLen := 0#32, outNib := 0#8, ebCnt := 0#4 } ∧
      ∀ a, t.texout.read? a = none

/-! ### Errors -/

/-- R300: with `FMT` 14 or 15, DECPX, ENCPX, LOAD and SAVE set `ERR` to 1 and change nothing else (LOAD
and SAVE where `ORI` is good), and no other command ever sets it to 1; CFG stores the codes. -/
def Obligations.UnsupportedFormatIsRaised : Prop :=
  (∀ s : State, badFormat s →
    exec .decpx s = .next (failed s 1#8) ∧ exec .encpx s = .next (failed s 1#8) ∧
    (¬ badOrientation s →
      exec .load s = .next (failed s 1#8) ∧ exec .save s = .next (failed s 1#8))) ∧
  (∀ (i : Instr) (s t : State), exec i s = .next t → s.err = 0#2 → t.err = 1#2 →
    badFormat s ∧ (i = .decpx ∨ i = .encpx ∨ i = .load ∨ i = .save)) ∧
  ∀ (f o : BitVec 4) (p : BitVec 1) (s : State),
    exec (.cfg f o p) s = .next { s with fmt := f, ori := o, pad := p }

/-- R301: with `ORI` not 0, 1, 4 or 8, COORD, LOAD and SAVE set `ERR` to 2 and change nothing else, and
no other command ever sets it to 2. -/
def Obligations.UnsupportedOrientationIsRaised : Prop :=
  (∀ s : State, badOrientation s →
    exec .coord s = .next (failed s 2#8) ∧ exec .load s = .next (failed s 2#8) ∧
    exec .save s = .next (failed s 2#8)) ∧
  ∀ (i : Instr) (s t : State), exec i s = .next t → s.err = 0#2 → t.err = 2#2 →
    badOrientation s ∧ (i = .coord ∨ i = .load ∨ i = .save)

/-- R303: a command that raises an error changes `STATUS.ERR` and nothing else. -/
def Obligations.ErrorsArePrecise : Prop :=
  ∀ (i : Instr) (s t : State), exec i s = .next t → s.err = 0#2 → t.err ≠ 0#2 →
    t = failed s (t.err.setWidth 8)

/-- R305: an illegal word is IllegalCommand whatever the settings; LOAD and SAVE check the orientation
before the format; DECPX and ENCPX check only the format, COORD only the orientation. -/
def Obligations.ErrorPriority : Prop :=
  (∀ (w : Word) (s : State), exec (.illegal w) s = .next (failed s 3#8)) ∧
  (∀ s : State, badOrientation s → badFormat s →
    exec .load s = .next (failed s 2#8) ∧ exec .save s = .next (failed s 2#8) ∧
    exec .coord s = .next (failed s 2#8) ∧ exec .decpx s = .next (failed s 1#8) ∧
    exec .encpx s = .next (failed s 1#8)) ∧
  (∀ s t : State, ¬ badFormat s → (exec .decpx s = .next t ∨ exec .encpx s = .next t) →
    t.err = s.err) ∧
  (∀ s t : State, ¬ badOrientation s → exec .coord s = .next t → t.err = s.err) ∧
  ∀ s : State, ¬ badOrientation s → badFormat s →
    exec .load s = .next (failed s 1#8) ∧ exec .save s = .next (failed s 1#8)

/-! ### DECPX -/

/-- R171, R172: DECPX checks the format, then that the input holds the whole pixel; if not it sets `EOS`
and changes nothing else, consuming nothing; else `COLOR` is the decoded pixel and only the cursor and
the bundle move with it. -/
def Obligations.DecpxChecksThenDecodes : Prop :=
  decode 0x80000000#32 = .decpx ∧ ∀ s : State,
    (badFormat s → exec .decpx s = .next (failed s 1#8)) ∧
    (lacksPixel s → exec .decpx s = .next { s with status := s.status ||| 0x02#8 }) ∧
    (∀ f, s.fmt = formatCode f → ¬ lacksPixel s → ∃ t, exec .decpx s = .next t ∧
      t.color = (decodePixel f s).1 ∧ t = { s with
        color := t.color, inPtr := (decodePixel f s).2.inPtr, inNib := (decodePixel f s).2.inNib,
        bq := (decodePixel f s).2.bq, bqCnt := (decodePixel f s).2.bqCnt })

/-- R180, R181, R185 to R188: DECPX of RGBA8888, RGB888, LA88, HL88, L8 and A8. The bytes are read in
stream order, a pending nibble is dropped (R70), and nothing but `COLOR` and the cursor changes. -/
def Obligations.WholeByteFormatsDecode : Prop :=
  ∀ (s : State) (n : Nat) (c : Color), wholeByteColor s.fmt (byteAt s) = some (n, c) →
    n ≤ available s →
    exec .decpx s = .next { s with color := c, inPtr := s.inPtr + BitVec.ofNat 32 n, inNib := 0#8 }

/-- R182, R183: DECPX of RGBA5551 and RGB565: the word is little-endian (R71), the fields are expanded
by truncating integer arithmetic, and nothing but `COLOR` and the cursor changes. -/
def Obligations.PackedFormatsDecode : Prop :=
  ∀ (s : State) (c : Color), packedColor s.fmt (byteAt s) = some c → 2 ≤ available s →
    exec .decpx s = .next { s with color := c, inPtr := s.inPtr + 2#32, inNib := 0#8 }

/-- R184, R189, R190, R191 (with R72): DECPX of RGBA4444, LA44, L4 and A4, under either nibble order
and from either half of a byte. -/
def Obligations.NibbleFormatsDecode : Prop :=
  ∀ (s : State) (n : Nat) (c : Color), nibbleColor s.fmt (streamNibble s) = some (n, c) →
    n ≤ inPending s + 2 * available s →
    exec .decpx s = .next
      { s with color := c, inPtr := (afterNibbles s n).1, inNib := (afterNibbles s n).2 }

/-- R173, R192, R193 (with R174): DECPX of ETC1 and ETC1A4. With a bundle pending, its next color is
handed out, whichever format filled it; with none, one block of 8 or 16 bytes is read, decoded through
the port, and its color 0 handed out. ETC1 forces alpha to 255. -/
def Obligations.EtcFormatsDecode : Prop :=
  let opaqued := fun c : Color => (255#8 ++ c.extractLsb' 0 24 : Color)
  ∀ s : State,
    (∀ h : 0 < s.bqCnt.toNat ∧ s.bqCnt.toNat ≤ 16,
      (s.fmt = 12#4 → exec .decpx s = .next
        { s with color := opaqued (s.bq[16 - s.bqCnt.toNat]'(by omega)), bqCnt := s.bqCnt - 1#5 }) ∧
      (s.fmt = 13#4 → exec .decpx s = .next
        { s with color := s.bq[16 - s.bqCnt.toNat]'(by omega), bqCnt := s.bqCnt - 1#5 })) ∧
    (s.bqCnt = 0#5 → s.fmt = 12#4 → 8 ≤ available s →
      let colors := Config.blockDecode false (Vector.ofFn fun k => byteAt s k.val)
      exec .decpx s = .next
        { s with
          color := opaqued colors[0], inPtr := s.inPtr + 8#32, inNib := 0#8, bq := colors,
          bqCnt := 15#5 }) ∧
    (s.bqCnt = 0#5 → s.fmt = 13#4 → 16 ≤ available s →
      let colors := Config.blockDecode true (Vector.ofFn fun k => byteAt s k.val)
      exec .decpx s = .next
        { s with
          color := colors[0], inPtr := s.inPtr + 16#32, inNib := 0#8, bq := colors,
          bqCnt := 15#5 })

/-! ### ENCPX -/

/-- R220, R221, R225 to R228 (with R73): ENCPX of RGBA8888, RGB888, LA88, HL88, L8 and A8 appends the
format's bytes in order, after the flush of a pending nibble; nothing else changes. -/
def Obligations.WholeByteFormatsEncode : Prop :=
  ∀ (s : State) (out : List Nat), wholeBytes s.fmt s.color = some out →
    roomFor s ((flushed s).length + out.length) →
    ∃ t, exec .encpx s = .next t ∧ appends s t (flushed s ++ out.map channel) (nibAfterBytes s)

/-- R222, R223 (with R73, R75): ENCPX of RGBA5551 and RGB565 appends the packed word, low byte first,
after the flush of a pending nibble; nothing else changes. -/
def Obligations.PackedFormatsEncode : Prop :=
  ∀ (s : State) (w : Nat), packedWord s.fmt s.color = some w →
    roomFor s ((flushed s).length + 2) →
    ∃ t, exec .encpx s = .next t ∧
      appends s t (flushed s ++ [channel (w % 256), channel (w / 256)]) (nibAfterBytes s)

/-- R224, R229, R230, R231 (with R74): ENCPX of RGBA4444, LA44, L4 and A4 appends the nibbles, a pending
one first, as whole bytes under either nibble order; an odd one is left pending in `OUT_NIB` and is not
in TEXOUT (R66). -/
def Obligations.NibbleFormatsEncode : Prop :=
  ∀ (s : State) (v : List Nat), nibblesOf s.fmt s.color = some v →
    let out := paired s.nibbleOrder (outPending s ++ v)
    roomFor s out.1.length → ∃ t, exec .encpx s = .next t ∧ appends s t out.1 out.2

/-- R214, R232, R233: ENCPX of ETC1 and ETC1A4. The color joins the bundle and nothing is written until
the 16th, which encodes the bundle through the port and appends the block's bytes after the flush of a
pending nibble; `EB_CNT` returns to 0. -/
def Obligations.EtcFormatsEncode : Prop :=
  ∀ (s : State) (hasAlpha : Bool), s.fmt = (if hasAlpha then 13#4 else 12#4) →
    let colors : Bundle := s.eb.set s.ebCnt.toNat s.color
    (s.ebCnt.toNat < 15 →
      exec .encpx s = .next { s with eb := colors, ebCnt := s.ebCnt + 1#4 }) ∧
    (s.ebCnt = 15#4 → roomFor s ((flushed s).length + Config.etcBytes hasAlpha) →
      ∃ t, exec .encpx s = .next t ∧
        appends { s with eb := colors, ebCnt := 0#4 } t
          (flushed s ++ (Config.blockEncode hasAlpha colors).toList) (nibAfterBytes s))

/-- From R76: an append goes to address `OUT_LEN` and advances it by 1; with `OUT_LEN` = 2^32 - 1 it is
refused. An ENCPX whose bytes do not all fit is refused, in every format: whole bytes, packed words,
nibbles that complete a byte, and the 16th color of an ETC bundle. That it is refused whole, with none
of its bytes kept, is the model's reading (log entry 13). -/
def Obligations.FullTexoutRefusesAnAppend : Prop :=
  (∀ (b : Byte) (s : State), s.outLen ≠ 0xFFFFFFFF#32 →
    ∃ t, texAppend b s = .next t ∧ appends s t [b] s.outNib) ∧
  (∀ (b : Byte) (s : State), s.outLen = 0xFFFFFFFF#32 → texAppend b s = .refused .texoutFull) ∧
  (∀ (s : State) (out : List Nat), wholeBytes s.fmt s.color = some out →
    ¬ roomFor s ((flushed s).length + out.length) → exec .encpx s = .refused .texoutFull) ∧
  (∀ (s : State) (w : Nat), packedWord s.fmt s.color = some w →
    ¬ roomFor s ((flushed s).length + 2) → exec .encpx s = .refused .texoutFull) ∧
  (∀ (s : State) (v : List Nat), nibblesOf s.fmt s.color = some v →
    ¬ roomFor s (paired s.nibbleOrder (outPending s ++ v)).1.length →
    exec .encpx s = .refused .texoutFull) ∧
  ∀ (s : State) (hasAlpha : Bool), s.fmt = (if hasAlpha then 13#4 else 12#4) → s.ebCnt = 15#4 →
    ¬ roomFor s ((flushed s).length + Config.etcBytes hasAlpha) →
    exec .encpx s = .refused .texoutFull

/-! ### The tile address generator -/

/-- R241: `SW` and `SH` are the strides of the dimensions; without padding the stride is the least
multiple of 8 not below the dimension, with padding the least power of two not below that. -/
def Obligations.StridesAreLeast : Prop :=
  (∀ s : State, s.sw = strideOf s.pad s.width.toNat ∧ s.sh = strideOf s.pad s.height.toNat) ∧
  ∀ d : Nat,
    (8 ∣ strideOf 0#1 d ∧ d ≤ strideOf 0#1 d ∧ ∀ m, 8 ∣ m → d ≤ m → strideOf 0#1 d ≤ m) ∧
    ((∃ k, strideOf 1#1 d = 2 ^ k) ∧ strideOf 0#1 d ≤ strideOf 1#1 d ∧
      ∀ k, strideOf 0#1 d ≤ 2 ^ k → strideOf 1#1 d ≤ 2 ^ k)

/-- R243 to R247, R250: COORD sets `X`, `Y` to the generator's coordinate of `IDX`, untruncated (R27),
and `INB` to whether it is inside the buffer; nothing else changes, and an index at or above `N` is
legal. With an unnamed orientation it raises UnsupportedOrientation; `FMT` is not read. -/
def Obligations.CoordEvaluatesTheGenerator : Prop :=
  decode 0xA0000000#32 = .coord ∧
  (∀ (s : State) (o : Orientation), s.ori = orientationCode o → s.legalDims →
    ∃ t, exec .coord s = .next t ∧
      t = { s with x := t.x, y := t.y, status := withInside s (coordinate s o s.idx.toNat) } ∧
      (t.x.toNat, t.y.toNat) = coordinate s o s.idx.toNat) ∧
  ∀ s : State, badOrientation s → exec .coord s = .next (failed s 2#8)

/-- The law of R251: over the `N` indices every coordinate of the padded canvas is produced exactly
once, under every orientation. -/
def Obligations.GeneratorIsABijection : Prop :=
  ∀ (s : State) (o : Orientation), s.legalDims →
    (∀ i, i < s.sw * s.sh → (coordOf s o i).1 < s.sw ∧ (coordOf s o i).2 < s.sh) ∧
    ∀ x y, x < s.sw → y < s.sh → ∃! i, i < s.sw * s.sh ∧ coordOf s o i = (x, y)

/-- The law of R253: an index at or above `N` gives a coordinate outside the padded canvas on the
tile-row axis and inside it on the other, so COORD gives `INB` = 0 and WRPIX after it writes nothing. -/
def Obligations.IndicesPastTheEndAreOutside : Prop :=
  (∀ (s : State) (o : Orientation) (i : Nat), s.legalDims → s.sw * s.sh ≤ i →
    match o with
    | .default | .transposeTile => s.sh ≤ (coordOf s o i).2 ∧ (coordOf s o i).1 < s.sw
    | .rotate90 | .transpose => s.sw ≤ (coordOf s o i).1 ∧ (coordOf s o i).2 < s.sh) ∧
  ∀ (s : State) (o : Orientation), s.legalDims → s.ori = orientationCode o →
    s.sw * s.sh ≤ s.idx.toNat →
    ∃ t, exec .coord s = .next t ∧ t.inb = false ∧ exec .wrpix t = .next t

/-- The law of R256: 16 consecutive indices from a multiple of 16 fill one 4×4 square whose corner
coordinates are multiples of 4, under every orientation. -/
def Obligations.SixteenIndicesFillASquare : Prop :=
  ∀ (s : State) (o : Orientation) (m : Nat), s.legalDims →
    ∃ cx cy, ∀ x y, (x < 4 ∧ y < 4) ↔
      ∃ k, k < 16 ∧ coordOf s o (16 * m + k) = (4 * cx + x, 4 * cy + y)

/-! ### Pixel-buffer commands -/

/-- R260: RDPIX reads the pixel at the clamped coordinate into `COLOR` and changes nothing else; it
reads neither `FMT` nor `ORI`. -/
def Obligations.RdpixReadsTheClampedPixel : Prop :=
  decode 0xB0000000#32 = .rdpix ∧ ∀ s : State, s.legalDims →
    exec .rdpix s = .next
      { s with color := pixAt s (address s (clamped s (s.x.toNat, s.y.toNat))) }

/-- R262: WRPIX writes `COLOR` at `Y * WIDTH + X` when that pixel is inside the buffer and changes no
other word and no register; outside it changes nothing. It does not read `INB`. -/
def Obligations.WrpixWritesInsideOnly : Prop :=
  decode 0xC0000000#32 = .wrpix ∧ ∀ s : State, s.legalDims →
    (inside s (s.x.toNat, s.y.toNat) → ∃ t, exec .wrpix s = .next t ∧ t = { s with pix := t.pix } ∧
      pixAt t (address s (s.x.toNat, s.y.toNat)) = s.color ∧
      ∀ a, a ≠ address s (s.x.toNat, s.y.toNat) → pixAt t a = pixAt s a) ∧
    (¬ inside s (s.x.toNat, s.y.toNat) → exec .wrpix s = .next s)

/-! ### LOAD -/

/-- R281: LOAD changes only `IN_PTR`, `IN_NIB`, `BQ_CNT`, `BQ`, `EOS`, `DONE_CNT` and PIX, and a PIX word
that no index it reached and found inside the buffer names keeps its value. -/
def Obligations.LoadChangesOnlyItsOwn : Prop :=
  ∀ (s : State) (f : Format) (o : Orientation), settings s f o →
    ∃ t, exec .load s = .next t ∧
      t = { s with
        inPtr := t.inPtr, inNib := t.inNib, bqCnt := t.bqCnt, bq := t.bq, status := t.status,
        doneCnt := t.doneCnt, pix := t.pix } ∧
      t.status &&& 0xFD#8 = s.status &&& 0xFD#8 ∧
      ∀ a, (∀ i, i < t.doneCnt.toNat → inside s (coordinate s o i) →
        address s (coordinate s o i) ≠ a) → pixAt t a = pixAt s a

/-- The laws of R283 and R284: LOAD completes with as many pixels as the input holds, `N` at most. With
enough input it reads exactly `N` × bits / 8 bytes and leaves nothing pending; with less it sets
`EOS`. -/
def Obligations.LoadConsumesTheInput : Prop :=
  ∀ (s : State) (f : Format) (o : Orientation), settings s f o →
    let n := s.sw * s.sh
    let held := pixelsHeld f s.inLen.toNat
    ∃ t, exec .load s = .next t ∧ t.doneCnt.toNat = min n held ∧
      (n ≤ held ↔ n * bitsPerPixel f / 8 ≤ s.inLen.toNat) ∧
      (n ≤ held → t.eos = false ∧ t.inPtr.toNat = n * bitsPerPixel f / 8 ∧ t.inNib = 0#8 ∧
        t.bqCnt = 0#5) ∧
      (held < n → t.eos = true)

/-- The law of R282: when the input holds all `N` pixels, LOAD leaves PIX, the cursor, the bundle and
`EOS` as RSTIN and then `LOADSTEP` 0 to `N` - 1 leave them. -/
def Obligations.LoadIsTheStepSequence : Prop :=
  ∀ (s : State) (f : Format) (o : Orientation), settings s f o →
    s.sw * s.sh ≤ pixelsHeld f s.inLen.toNat →
    ∃ t u, exec .load s = .next t ∧
      runAll (.rstin :: (List.range (s.sw * s.sh)).flatMap loadStep) s = .next u ∧
      t.pix = u.pix ∧ t.inPtr = u.inPtr ∧ t.inNib = u.inNib ∧ t.bqCnt = u.bqCnt ∧ t.eos = u.eos

/-- From R280, R86 and R284: pixel `i` of the stream is paired with coordinate `i`. For every format, each
pixel that LOAD reached, whether the input held all `N` or ran out, and found inside the buffer holds the
color of pixel `i` of the stream. -/
def Obligations.LoadPairsStreamAndCoordinates : Prop :=
  ∀ (s : State) (f : Format) (o : Orientation), settings s f o →
    ∃ t, exec .load s = .next t ∧
      ∀ i, i < s.sw * s.sh → i < pixelsHeld f s.inLen.toNat → inside s (coordinate s o i) →
        pixAt t (address s (coordinate s o i)) = streamColor s f i

/-! ### SAVE -/

/-- R286: SAVE completes, never refused, with `OUT_LEN` = `N` × bits / 8 and nothing pending; it changes
only `OUT_LEN`, `OUT_NIB`, `EB_CNT`, `EB`, `DONE_CNT` and TEXOUT. -/
def Obligations.SaveWritesWholeOutput : Prop :=
  ∀ (s : State) (f : Format) (o : Orientation), settings s f o →
    ∃ t, exec .save s = .next t ∧
      t = { s with
        texout := t.texout, outLen := t.outLen, outNib := 0#8, ebCnt := 0#4, eb := t.eb,
        doneCnt := t.doneCnt } ∧
      t.outLen.toNat = s.sw * s.sh * bitsPerPixel f / 8 ∧ t.doneCnt.toNat = s.sw * s.sh ∧
      t.texout.addresses = List.range t.outLen.toNat

/-- The law of R287: SAVE leaves TEXOUT, `OUT_LEN`, `OUT_NIB` and `EB_CNT` as RSTOUT and then `SAVESTEP`
0 to `N` - 1 leave them. -/
def Obligations.SaveIsTheStepSequence : Prop :=
  ∀ (s : State) (f : Format) (o : Orientation), settings s f o →
    ∃ t u, exec .save s = .next t ∧
      runAll (.rstout :: (List.range (s.sw * s.sh)).flatMap saveStep) s = .next u ∧
      t.texout = u.texout ∧ t.outLen = u.outLen ∧ t.outNib = u.outNib ∧ t.ebCnt = u.ebCnt

/-- R285 for L8 (R227): byte `i` of the output is the green channel of the pixel at coordinate `i`,
clamped into the buffer. -/
def Obligations.SaveOfLuminanceReadsClampedGreen : Prop :=
  ∀ (s : State) (o : Orientation), settings s .l8 o →
    ∃ t, exec .save s = .next t ∧ t.outLen.toNat = s.sw * s.sh ∧
      ∀ i, i < s.sw * s.sh →
        t.texout.read? i =
          some (channel (green (pixAt s (address s (clamped s (coordinate s o i))))))

/-- The law of R288 for RGBA8888: SAVE, then LOAD of the bytes it wrote with the same settings into any
picture memory, gives every pixel of the buffer its color again. -/
def Obligations.SaveThenLoadRestoresThePicture : Prop :=
  ∀ (s : State) (o : Orientation), settings s .rgba8888 o →
    ∃ t, exec .save s = .next t ∧ ∀ p : Memory 32,
      ∃ u, exec .load { t with texin := t.texout, inLen := t.outLen, pix := p } = .next u ∧
        u.eos = false ∧ u.doneCnt.toNat = s.sw * s.sh ∧
        ∀ x y, x < s.width.toNat → y < s.height.toNat →
          pixAt u (address s (x, y)) = pixAt s (address s (x, y))

/-! ### Numeric laws -/

/-- The expansion tables of R235, every entry the spec lists. -/
def Obligations.ExpansionTables : Prop :=
  (List.range 2).map (fun v => (expand1 (BitVec.ofNat 1 v)).toNat) = [0, 255] ∧
  (List.range 16).map (fun v => (expand4 (BitVec.ofNat 4 v)).toNat) =
    [0, 17, 34, 51, 68, 85, 102, 119, 136, 153, 170, 187, 204, 221, 238, 255] ∧
  (List.range 32).map (fun v => (expand5 (BitVec.ofNat 5 v)).toNat) =
    [0, 8, 16, 24, 33, 41, 49, 57, 66, 74, 82, 90, 99, 107, 115, 123, 132, 140, 148, 156, 165,
      173, 181, 189, 198, 206, 214, 222, 231, 239, 247, 255] ∧
  (List.range 64).map (fun v => (expand6 (BitVec.ofNat 6 v)).toNat) =
    [0, 4, 8, 12, 16, 20, 24, 28, 32, 36, 40, 44, 48, 52, 56, 60,
      65, 69, 73, 77, 81, 85, 89, 93, 97, 101, 105, 109, 113, 117, 121, 125,
      130, 134, 138, 142, 146, 150, 154, 158, 162, 166, 170, 174, 178, 182, 186, 190,
      195, 199, 203, 207, 211, 215, 219, 223, 227, 231, 235, 239, 243, 247, 251, 255]

/-- The law of R236: for every format of codes 0 to 11, the bytes of one pixel (of two for L4 and A4)
decoded and encoded are the same bytes, under either nibble order, wherever the streams stand at a
byte boundary. -/
def Obligations.DecodeThenEncodeGivesTheBytesBack : Prop :=
  ∀ (s : State) (f : Format), s.fmt = formatCode f → f ≠ .etc1 → f ≠ .etc1a4 →
    inPending s = 0 → outPending s = [] → roundTripBytes f ≤ available s →
    roomFor s (roundTripBytes f) →
    ∃ t, runAll (roundTrip f) s = .next t ∧
      t.inPtr = s.inPtr + BitVec.ofNat 32 (roundTripBytes f) ∧
      t.outLen = s.outLen + BitVec.ofNat 32 (roundTripBytes f) ∧
      ∀ k, k < roundTripBytes f → t.texout.read? (s.outLen.toNat + k) = some (byteAt s k)

/-- The law of R237: a channel narrowed and expanded again is off by at most 7 in 5 bits, 3 in 6 bits,
15 in 4 bits and 127 in 1 bit. -/
def Obligations.NarrowThenExpandIsBounded : Prop :=
  ∀ c : Byte,
    ((expand5 (narrow5 c)).toNat ≤ c.toNat + 7 ∧ c.toNat ≤ (expand5 (narrow5 c)).toNat + 7) ∧
    ((expand6 (narrow6 c)).toNat ≤ c.toNat + 3 ∧ c.toNat ≤ (expand6 (narrow6 c)).toNat + 3) ∧
    ((expand4 (narrow4 c)).toNat ≤ c.toNat + 15 ∧ c.toNat ≤ (expand4 (narrow4 c)).toNat + 15) ∧
    ((expand1 (narrow1 c)).toNat ≤ c.toNat + 127 ∧ c.toNat ≤ (expand1 (narrow1 c)).toNat + 127)

/-! ### Invariants -/

/-- The state right after reset is legal. -/
def Obligations.ResetStateIsLegal : Prop := State.reset.legal

/-- Every step keeps a legal state legal: dimensions 1 to 16384 (R24), coordinates below 2^25 (R27),
unused bits 0 (R29, R32, R34), `BQ_CNT` at most 16 (R35), `DONE_CNT` at most 2^28 (R37), memories in
canonical form, TEXOUT exactly the bytes below `OUT_LEN` (R33). -/
def Obligations.EveryStepKeepsTheStateLegal : Prop :=
  ∀ s t : State, s.legal → step s = .next t → t.legal

/-- R62: with legal dimensions no command forms a PIX address that does not exist, so none faults. -/
def Obligations.LegalDimensionsNeverFault : Prop :=
  ∀ (i : Instr) (s : State) (f : Fault), s.legalDims → exec i s ≠ .fault f
end

