-- ==== Sys2Proof/Laws/State.lean ====
section
/-! SUPPORT. One lemma per field per update of State (Machine/State.lean), each true by rfl, so that no proof
unfolds a record update. -/

namespace Sys2Proof.Machine.State

variable (s : State)

@[simp] theorem setConfig_fmt a b c : (s.setConfig a b c).fmt = a := rfl
@[simp] theorem setConfig_ori a b c : (s.setConfig a b c).ori = b := rfl
@[simp] theorem setConfig_pad a b c : (s.setConfig a b c).pad = c := rfl
@[simp] theorem setConfig_width a b c : (s.setConfig a b c).width = s.width := rfl
@[simp] theorem setConfig_height a b c : (s.setConfig a b c).height = s.height := rfl
@[simp] theorem setConfig_idx a b c : (s.setConfig a b c).idx = s.idx := rfl
@[simp] theorem setConfig_x a b c : (s.setConfig a b c).x = s.x := rfl
@[simp] theorem setConfig_y a b c : (s.setConfig a b c).y = s.y := rfl
@[simp] theorem setConfig_color a b c : (s.setConfig a b c).color = s.color := rfl
@[simp] theorem setConfig_status a b c : (s.setConfig a b c).status = s.status := rfl
@[simp] theorem setConfig_inLen a b c : (s.setConfig a b c).inLen = s.inLen := rfl
@[simp] theorem setConfig_inPtr a b c : (s.setConfig a b c).inPtr = s.inPtr := rfl
@[simp] theorem setConfig_inNib a b c : (s.setConfig a b c).inNib = s.inNib := rfl
@[simp] theorem setConfig_outLen a b c : (s.setConfig a b c).outLen = s.outLen := rfl
@[simp] theorem setConfig_outNib a b c : (s.setConfig a b c).outNib = s.outNib := rfl
@[simp] theorem setConfig_bqCnt a b c : (s.setConfig a b c).bqCnt = s.bqCnt := rfl
@[simp] theorem setConfig_ebCnt a b c : (s.setConfig a b c).ebCnt = s.ebCnt := rfl
@[simp] theorem setConfig_doneCnt a b c : (s.setConfig a b c).doneCnt = s.doneCnt := rfl
@[simp] theorem setConfig_bq a b c : (s.setConfig a b c).bq = s.bq := rfl
@[simp] theorem setConfig_eb a b c : (s.setConfig a b c).eb = s.eb := rfl
@[simp] theorem setConfig_texin a b c : (s.setConfig a b c).texin = s.texin := rfl
@[simp] theorem setConfig_texout a b c : (s.setConfig a b c).texout = s.texout := rfl
@[simp] theorem setConfig_pix a b c : (s.setConfig a b c).pix = s.pix := rfl
@[simp] theorem setConfig_nibbleOrder a b c : (s.setConfig a b c).nibbleOrder = s.nibbleOrder := rfl
@[simp] theorem setConfig_script a b c : (s.setConfig a b c).script = s.script := rfl
@[simp] theorem setConfig_pos a b c : (s.setConfig a b c).pos = s.pos := rfl
@[simp] theorem setConfig_reply a b c : (s.setConfig a b c).reply = s.reply := rfl

@[simp] theorem setDims_fmt a b : (s.setDims a b).fmt = s.fmt := rfl
@[simp] theorem setDims_ori a b : (s.setDims a b).ori = s.ori := rfl
@[simp] theorem setDims_pad a b : (s.setDims a b).pad = s.pad := rfl
@[simp] theorem setDims_width a b : (s.setDims a b).width = a := rfl
@[simp] theorem setDims_height a b : (s.setDims a b).height = b := rfl
@[simp] theorem setDims_idx a b : (s.setDims a b).idx = s.idx := rfl
@[simp] theorem setDims_x a b : (s.setDims a b).x = s.x := rfl
@[simp] theorem setDims_y a b : (s.setDims a b).y = s.y := rfl
@[simp] theorem setDims_color a b : (s.setDims a b).color = s.color := rfl
@[simp] theorem setDims_status a b : (s.setDims a b).status = s.status := rfl
@[simp] theorem setDims_inLen a b : (s.setDims a b).inLen = s.inLen := rfl
@[simp] theorem setDims_inPtr a b : (s.setDims a b).inPtr = s.inPtr := rfl
@[simp] theorem setDims_inNib a b : (s.setDims a b).inNib = s.inNib := rfl
@[simp] theorem setDims_outLen a b : (s.setDims a b).outLen = s.outLen := rfl
@[simp] theorem setDims_outNib a b : (s.setDims a b).outNib = s.outNib := rfl
@[simp] theorem setDims_bqCnt a b : (s.setDims a b).bqCnt = s.bqCnt := rfl
@[simp] theorem setDims_ebCnt a b : (s.setDims a b).ebCnt = s.ebCnt := rfl
@[simp] theorem setDims_doneCnt a b : (s.setDims a b).doneCnt = s.doneCnt := rfl
@[simp] theorem setDims_bq a b : (s.setDims a b).bq = s.bq := rfl
@[simp] theorem setDims_eb a b : (s.setDims a b).eb = s.eb := rfl
@[simp] theorem setDims_texin a b : (s.setDims a b).texin = s.texin := rfl
@[simp] theorem setDims_texout a b : (s.setDims a b).texout = s.texout := rfl
@[simp] theorem setDims_pix a b : (s.setDims a b).pix = s.pix := rfl
@[simp] theorem setDims_nibbleOrder a b : (s.setDims a b).nibbleOrder = s.nibbleOrder := rfl
@[simp] theorem setDims_script a b : (s.setDims a b).script = s.script := rfl
@[simp] theorem setDims_pos a b : (s.setDims a b).pos = s.pos := rfl
@[simp] theorem setDims_reply a b : (s.setDims a b).reply = s.reply := rfl

@[simp] theorem setIdx_fmt a : (s.setIdx a).fmt = s.fmt := rfl
@[simp] theorem setIdx_ori a : (s.setIdx a).ori = s.ori := rfl
@[simp] theorem setIdx_pad a : (s.setIdx a).pad = s.pad := rfl
@[simp] theorem setIdx_width a : (s.setIdx a).width = s.width := rfl
@[simp] theorem setIdx_height a : (s.setIdx a).height = s.height := rfl
@[simp] theorem setIdx_idx a : (s.setIdx a).idx = a := rfl
@[simp] theorem setIdx_x a : (s.setIdx a).x = s.x := rfl
@[simp] theorem setIdx_y a : (s.setIdx a).y = s.y := rfl
@[simp] theorem setIdx_color a : (s.setIdx a).color = s.color := rfl
@[simp] theorem setIdx_status a : (s.setIdx a).status = s.status := rfl
@[simp] theorem setIdx_inLen a : (s.setIdx a).inLen = s.inLen := rfl
@[simp] theorem setIdx_inPtr a : (s.setIdx a).inPtr = s.inPtr := rfl
@[simp] theorem setIdx_inNib a : (s.setIdx a).inNib = s.inNib := rfl
@[simp] theorem setIdx_outLen a : (s.setIdx a).outLen = s.outLen := rfl
@[simp] theorem setIdx_outNib a : (s.setIdx a).outNib = s.outNib := rfl
@[simp] theorem setIdx_bqCnt a : (s.setIdx a).bqCnt = s.bqCnt := rfl
@[simp] theorem setIdx_ebCnt a : (s.setIdx a).ebCnt = s.ebCnt := rfl
@[simp] theorem setIdx_doneCnt a : (s.setIdx a).doneCnt = s.doneCnt := rfl
@[simp] theorem setIdx_bq a : (s.setIdx a).bq = s.bq := rfl
@[simp] theorem setIdx_eb a : (s.setIdx a).eb = s.eb := rfl
@[simp] theorem setIdx_texin a : (s.setIdx a).texin = s.texin := rfl
@[simp] theorem setIdx_texout a : (s.setIdx a).texout = s.texout := rfl
@[simp] theorem setIdx_pix a : (s.setIdx a).pix = s.pix := rfl
@[simp] theorem setIdx_nibbleOrder a : (s.setIdx a).nibbleOrder = s.nibbleOrder := rfl
@[simp] theorem setIdx_script a : (s.setIdx a).script = s.script := rfl
@[simp] theorem setIdx_pos a : (s.setIdx a).pos = s.pos := rfl
@[simp] theorem setIdx_reply a : (s.setIdx a).reply = s.reply := rfl

@[simp] theorem setCoord_fmt a b : (s.setCoord a b).fmt = s.fmt := rfl
@[simp] theorem setCoord_ori a b : (s.setCoord a b).ori = s.ori := rfl
@[simp] theorem setCoord_pad a b : (s.setCoord a b).pad = s.pad := rfl
@[simp] theorem setCoord_width a b : (s.setCoord a b).width = s.width := rfl
@[simp] theorem setCoord_height a b : (s.setCoord a b).height = s.height := rfl
@[simp] theorem setCoord_idx a b : (s.setCoord a b).idx = s.idx := rfl
@[simp] theorem setCoord_x a b : (s.setCoord a b).x = a := rfl
@[simp] theorem setCoord_y a b : (s.setCoord a b).y = b := rfl
@[simp] theorem setCoord_color a b : (s.setCoord a b).color = s.color := rfl
@[simp] theorem setCoord_status a b : (s.setCoord a b).status = s.status := rfl
@[simp] theorem setCoord_inLen a b : (s.setCoord a b).inLen = s.inLen := rfl
@[simp] theorem setCoord_inPtr a b : (s.setCoord a b).inPtr = s.inPtr := rfl
@[simp] theorem setCoord_inNib a b : (s.setCoord a b).inNib = s.inNib := rfl
@[simp] theorem setCoord_outLen a b : (s.setCoord a b).outLen = s.outLen := rfl
@[simp] theorem setCoord_outNib a b : (s.setCoord a b).outNib = s.outNib := rfl
@[simp] theorem setCoord_bqCnt a b : (s.setCoord a b).bqCnt = s.bqCnt := rfl
@[simp] theorem setCoord_ebCnt a b : (s.setCoord a b).ebCnt = s.ebCnt := rfl
@[simp] theorem setCoord_doneCnt a b : (s.setCoord a b).doneCnt = s.doneCnt := rfl
@[simp] theorem setCoord_bq a b : (s.setCoord a b).bq = s.bq := rfl
@[simp] theorem setCoord_eb a b : (s.setCoord a b).eb = s.eb := rfl
@[simp] theorem setCoord_texin a b : (s.setCoord a b).texin = s.texin := rfl
@[simp] theorem setCoord_texout a b : (s.setCoord a b).texout = s.texout := rfl
@[simp] theorem setCoord_pix a b : (s.setCoord a b).pix = s.pix := rfl
@[simp] theorem setCoord_nibbleOrder a b : (s.setCoord a b).nibbleOrder = s.nibbleOrder := rfl
@[simp] theorem setCoord_script a b : (s.setCoord a b).script = s.script := rfl
@[simp] theorem setCoord_pos a b : (s.setCoord a b).pos = s.pos := rfl
@[simp] theorem setCoord_reply a b : (s.setCoord a b).reply = s.reply := rfl

@[simp] theorem setColor_fmt a : (s.setColor a).fmt = s.fmt := rfl
@[simp] theorem setColor_ori a : (s.setColor a).ori = s.ori := rfl
@[simp] theorem setColor_pad a : (s.setColor a).pad = s.pad := rfl
@[simp] theorem setColor_width a : (s.setColor a).width = s.width := rfl
@[simp] theorem setColor_height a : (s.setColor a).height = s.height := rfl
@[simp] theorem setColor_idx a : (s.setColor a).idx = s.idx := rfl
@[simp] theorem setColor_x a : (s.setColor a).x = s.x := rfl
@[simp] theorem setColor_y a : (s.setColor a).y = s.y := rfl
@[simp] theorem setColor_color a : (s.setColor a).color = a := rfl
@[simp] theorem setColor_status a : (s.setColor a).status = s.status := rfl
@[simp] theorem setColor_inLen a : (s.setColor a).inLen = s.inLen := rfl
@[simp] theorem setColor_inPtr a : (s.setColor a).inPtr = s.inPtr := rfl
@[simp] theorem setColor_inNib a : (s.setColor a).inNib = s.inNib := rfl
@[simp] theorem setColor_outLen a : (s.setColor a).outLen = s.outLen := rfl
@[simp] theorem setColor_outNib a : (s.setColor a).outNib = s.outNib := rfl
@[simp] theorem setColor_bqCnt a : (s.setColor a).bqCnt = s.bqCnt := rfl
@[simp] theorem setColor_ebCnt a : (s.setColor a).ebCnt = s.ebCnt := rfl
@[simp] theorem setColor_doneCnt a : (s.setColor a).doneCnt = s.doneCnt := rfl
@[simp] theorem setColor_bq a : (s.setColor a).bq = s.bq := rfl
@[simp] theorem setColor_eb a : (s.setColor a).eb = s.eb := rfl
@[simp] theorem setColor_texin a : (s.setColor a).texin = s.texin := rfl
@[simp] theorem setColor_texout a : (s.setColor a).texout = s.texout := rfl
@[simp] theorem setColor_pix a : (s.setColor a).pix = s.pix := rfl
@[simp] theorem setColor_nibbleOrder a : (s.setColor a).nibbleOrder = s.nibbleOrder := rfl
@[simp] theorem setColor_script a : (s.setColor a).script = s.script := rfl
@[simp] theorem setColor_pos a : (s.setColor a).pos = s.pos := rfl
@[simp] theorem setColor_reply a : (s.setColor a).reply = s.reply := rfl

@[simp] theorem setStatus_fmt a : (s.setStatus a).fmt = s.fmt := rfl
@[simp] theorem setStatus_ori a : (s.setStatus a).ori = s.ori := rfl
@[simp] theorem setStatus_pad a : (s.setStatus a).pad = s.pad := rfl
@[simp] theorem setStatus_width a : (s.setStatus a).width = s.width := rfl
@[simp] theorem setStatus_height a : (s.setStatus a).height = s.height := rfl
@[simp] theorem setStatus_idx a : (s.setStatus a).idx = s.idx := rfl
@[simp] theorem setStatus_x a : (s.setStatus a).x = s.x := rfl
@[simp] theorem setStatus_y a : (s.setStatus a).y = s.y := rfl
@[simp] theorem setStatus_color a : (s.setStatus a).color = s.color := rfl
@[simp] theorem setStatus_status a : (s.setStatus a).status = a := rfl
@[simp] theorem setStatus_inLen a : (s.setStatus a).inLen = s.inLen := rfl
@[simp] theorem setStatus_inPtr a : (s.setStatus a).inPtr = s.inPtr := rfl
@[simp] theorem setStatus_inNib a : (s.setStatus a).inNib = s.inNib := rfl
@[simp] theorem setStatus_outLen a : (s.setStatus a).outLen = s.outLen := rfl
@[simp] theorem setStatus_outNib a : (s.setStatus a).outNib = s.outNib := rfl
@[simp] theorem setStatus_bqCnt a : (s.setStatus a).bqCnt = s.bqCnt := rfl
@[simp] theorem setStatus_ebCnt a : (s.setStatus a).ebCnt = s.ebCnt := rfl
@[simp] theorem setStatus_doneCnt a : (s.setStatus a).doneCnt = s.doneCnt := rfl
@[simp] theorem setStatus_bq a : (s.setStatus a).bq = s.bq := rfl
@[simp] theorem setStatus_eb a : (s.setStatus a).eb = s.eb := rfl
@[simp] theorem setStatus_texin a : (s.setStatus a).texin = s.texin := rfl
@[simp] theorem setStatus_texout a : (s.setStatus a).texout = s.texout := rfl
@[simp] theorem setStatus_pix a : (s.setStatus a).pix = s.pix := rfl
@[simp] theorem setStatus_nibbleOrder a : (s.setStatus a).nibbleOrder = s.nibbleOrder := rfl
@[simp] theorem setStatus_script a : (s.setStatus a).script = s.script := rfl
@[simp] theorem setStatus_pos a : (s.setStatus a).pos = s.pos := rfl
@[simp] theorem setStatus_reply a : (s.setStatus a).reply = s.reply := rfl

@[simp] theorem setInLen_fmt a : (s.setInLen a).fmt = s.fmt := rfl
@[simp] theorem setInLen_ori a : (s.setInLen a).ori = s.ori := rfl
@[simp] theorem setInLen_pad a : (s.setInLen a).pad = s.pad := rfl
@[simp] theorem setInLen_width a : (s.setInLen a).width = s.width := rfl
@[simp] theorem setInLen_height a : (s.setInLen a).height = s.height := rfl
@[simp] theorem setInLen_idx a : (s.setInLen a).idx = s.idx := rfl
@[simp] theorem setInLen_x a : (s.setInLen a).x = s.x := rfl
@[simp] theorem setInLen_y a : (s.setInLen a).y = s.y := rfl
@[simp] theorem setInLen_color a : (s.setInLen a).color = s.color := rfl
@[simp] theorem setInLen_status a : (s.setInLen a).status = s.status := rfl
@[simp] theorem setInLen_inLen a : (s.setInLen a).inLen = a := rfl
@[simp] theorem setInLen_inPtr a : (s.setInLen a).inPtr = s.inPtr := rfl
@[simp] theorem setInLen_inNib a : (s.setInLen a).inNib = s.inNib := rfl
@[simp] theorem setInLen_outLen a : (s.setInLen a).outLen = s.outLen := rfl
@[simp] theorem setInLen_outNib a : (s.setInLen a).outNib = s.outNib := rfl
@[simp] theorem setInLen_bqCnt a : (s.setInLen a).bqCnt = s.bqCnt := rfl
@[simp] theorem setInLen_ebCnt a : (s.setInLen a).ebCnt = s.ebCnt := rfl
@[simp] theorem setInLen_doneCnt a : (s.setInLen a).doneCnt = s.doneCnt := rfl
@[simp] theorem setInLen_bq a : (s.setInLen a).bq = s.bq := rfl
@[simp] theorem setInLen_eb a : (s.setInLen a).eb = s.eb := rfl
@[simp] theorem setInLen_texin a : (s.setInLen a).texin = s.texin := rfl
@[simp] theorem setInLen_texout a : (s.setInLen a).texout = s.texout := rfl
@[simp] theorem setInLen_pix a : (s.setInLen a).pix = s.pix := rfl
@[simp] theorem setInLen_nibbleOrder a : (s.setInLen a).nibbleOrder = s.nibbleOrder := rfl
@[simp] theorem setInLen_script a : (s.setInLen a).script = s.script := rfl
@[simp] theorem setInLen_pos a : (s.setInLen a).pos = s.pos := rfl
@[simp] theorem setInLen_reply a : (s.setInLen a).reply = s.reply := rfl

@[simp] theorem setInput_fmt a b : (s.setInput a b).fmt = s.fmt := rfl
@[simp] theorem setInput_ori a b : (s.setInput a b).ori = s.ori := rfl
@[simp] theorem setInput_pad a b : (s.setInput a b).pad = s.pad := rfl
@[simp] theorem setInput_width a b : (s.setInput a b).width = s.width := rfl
@[simp] theorem setInput_height a b : (s.setInput a b).height = s.height := rfl
@[simp] theorem setInput_idx a b : (s.setInput a b).idx = s.idx := rfl
@[simp] theorem setInput_x a b : (s.setInput a b).x = s.x := rfl
@[simp] theorem setInput_y a b : (s.setInput a b).y = s.y := rfl
@[simp] theorem setInput_color a b : (s.setInput a b).color = s.color := rfl
@[simp] theorem setInput_status a b : (s.setInput a b).status = s.status := rfl
@[simp] theorem setInput_inLen a b : (s.setInput a b).inLen = s.inLen := rfl
@[simp] theorem setInput_inPtr a b : (s.setInput a b).inPtr = a := rfl
@[simp] theorem setInput_inNib a b : (s.setInput a b).inNib = b := rfl
@[simp] theorem setInput_outLen a b : (s.setInput a b).outLen = s.outLen := rfl
@[simp] theorem setInput_outNib a b : (s.setInput a b).outNib = s.outNib := rfl
@[simp] theorem setInput_bqCnt a b : (s.setInput a b).bqCnt = s.bqCnt := rfl
@[simp] theorem setInput_ebCnt a b : (s.setInput a b).ebCnt = s.ebCnt := rfl
@[simp] theorem setInput_doneCnt a b : (s.setInput a b).doneCnt = s.doneCnt := rfl
@[simp] theorem setInput_bq a b : (s.setInput a b).bq = s.bq := rfl
@[simp] theorem setInput_eb a b : (s.setInput a b).eb = s.eb := rfl
@[simp] theorem setInput_texin a b : (s.setInput a b).texin = s.texin := rfl
@[simp] theorem setInput_texout a b : (s.setInput a b).texout = s.texout := rfl
@[simp] theorem setInput_pix a b : (s.setInput a b).pix = s.pix := rfl
@[simp] theorem setInput_nibbleOrder a b : (s.setInput a b).nibbleOrder = s.nibbleOrder := rfl
@[simp] theorem setInput_script a b : (s.setInput a b).script = s.script := rfl
@[simp] theorem setInput_pos a b : (s.setInput a b).pos = s.pos := rfl
@[simp] theorem setInput_reply a b : (s.setInput a b).reply = s.reply := rfl

@[simp] theorem setBq_fmt a : (s.setBq a).fmt = s.fmt := rfl
@[simp] theorem setBq_ori a : (s.setBq a).ori = s.ori := rfl
@[simp] theorem setBq_pad a : (s.setBq a).pad = s.pad := rfl
@[simp] theorem setBq_width a : (s.setBq a).width = s.width := rfl
@[simp] theorem setBq_height a : (s.setBq a).height = s.height := rfl
@[simp] theorem setBq_idx a : (s.setBq a).idx = s.idx := rfl
@[simp] theorem setBq_x a : (s.setBq a).x = s.x := rfl
@[simp] theorem setBq_y a : (s.setBq a).y = s.y := rfl
@[simp] theorem setBq_color a : (s.setBq a).color = s.color := rfl
@[simp] theorem setBq_status a : (s.setBq a).status = s.status := rfl
@[simp] theorem setBq_inLen a : (s.setBq a).inLen = s.inLen := rfl
@[simp] theorem setBq_inPtr a : (s.setBq a).inPtr = s.inPtr := rfl
@[simp] theorem setBq_inNib a : (s.setBq a).inNib = s.inNib := rfl
@[simp] theorem setBq_outLen a : (s.setBq a).outLen = s.outLen := rfl
@[simp] theorem setBq_outNib a : (s.setBq a).outNib = s.outNib := rfl
@[simp] theorem setBq_bqCnt a : (s.setBq a).bqCnt = s.bqCnt := rfl
@[simp] theorem setBq_ebCnt a : (s.setBq a).ebCnt = s.ebCnt := rfl
@[simp] theorem setBq_doneCnt a : (s.setBq a).doneCnt = s.doneCnt := rfl
@[simp] theorem setBq_bq a : (s.setBq a).bq = a := rfl
@[simp] theorem setBq_eb a : (s.setBq a).eb = s.eb := rfl
@[simp] theorem setBq_texin a : (s.setBq a).texin = s.texin := rfl
@[simp] theorem setBq_texout a : (s.setBq a).texout = s.texout := rfl
@[simp] theorem setBq_pix a : (s.setBq a).pix = s.pix := rfl
@[simp] theorem setBq_nibbleOrder a : (s.setBq a).nibbleOrder = s.nibbleOrder := rfl
@[simp] theorem setBq_script a : (s.setBq a).script = s.script := rfl
@[simp] theorem setBq_pos a : (s.setBq a).pos = s.pos := rfl
@[simp] theorem setBq_reply a : (s.setBq a).reply = s.reply := rfl

@[simp] theorem setBqCnt_fmt a : (s.setBqCnt a).fmt = s.fmt := rfl
@[simp] theorem setBqCnt_ori a : (s.setBqCnt a).ori = s.ori := rfl
@[simp] theorem setBqCnt_pad a : (s.setBqCnt a).pad = s.pad := rfl
@[simp] theorem setBqCnt_width a : (s.setBqCnt a).width = s.width := rfl
@[simp] theorem setBqCnt_height a : (s.setBqCnt a).height = s.height := rfl
@[simp] theorem setBqCnt_idx a : (s.setBqCnt a).idx = s.idx := rfl
@[simp] theorem setBqCnt_x a : (s.setBqCnt a).x = s.x := rfl
@[simp] theorem setBqCnt_y a : (s.setBqCnt a).y = s.y := rfl
@[simp] theorem setBqCnt_color a : (s.setBqCnt a).color = s.color := rfl
@[simp] theorem setBqCnt_status a : (s.setBqCnt a).status = s.status := rfl
@[simp] theorem setBqCnt_inLen a : (s.setBqCnt a).inLen = s.inLen := rfl
@[simp] theorem setBqCnt_inPtr a : (s.setBqCnt a).inPtr = s.inPtr := rfl
@[simp] theorem setBqCnt_inNib a : (s.setBqCnt a).inNib = s.inNib := rfl
@[simp] theorem setBqCnt_outLen a : (s.setBqCnt a).outLen = s.outLen := rfl
@[simp] theorem setBqCnt_outNib a : (s.setBqCnt a).outNib = s.outNib := rfl
@[simp] theorem setBqCnt_bqCnt a : (s.setBqCnt a).bqCnt = a := rfl
@[simp] theorem setBqCnt_ebCnt a : (s.setBqCnt a).ebCnt = s.ebCnt := rfl
@[simp] theorem setBqCnt_doneCnt a : (s.setBqCnt a).doneCnt = s.doneCnt := rfl
@[simp] theorem setBqCnt_bq a : (s.setBqCnt a).bq = s.bq := rfl
@[simp] theorem setBqCnt_eb a : (s.setBqCnt a).eb = s.eb := rfl
@[simp] theorem setBqCnt_texin a : (s.setBqCnt a).texin = s.texin := rfl
@[simp] theorem setBqCnt_texout a : (s.setBqCnt a).texout = s.texout := rfl
@[simp] theorem setBqCnt_pix a : (s.setBqCnt a).pix = s.pix := rfl
@[simp] theorem setBqCnt_nibbleOrder a : (s.setBqCnt a).nibbleOrder = s.nibbleOrder := rfl
@[simp] theorem setBqCnt_script a : (s.setBqCnt a).script = s.script := rfl
@[simp] theorem setBqCnt_pos a : (s.setBqCnt a).pos = s.pos := rfl
@[simp] theorem setBqCnt_reply a : (s.setBqCnt a).reply = s.reply := rfl

@[simp] theorem setTexout_fmt a b : (s.setTexout a b).fmt = s.fmt := rfl
@[simp] theorem setTexout_ori a b : (s.setTexout a b).ori = s.ori := rfl
@[simp] theorem setTexout_pad a b : (s.setTexout a b).pad = s.pad := rfl
@[simp] theorem setTexout_width a b : (s.setTexout a b).width = s.width := rfl
@[simp] theorem setTexout_height a b : (s.setTexout a b).height = s.height := rfl
@[simp] theorem setTexout_idx a b : (s.setTexout a b).idx = s.idx := rfl
@[simp] theorem setTexout_x a b : (s.setTexout a b).x = s.x := rfl
@[simp] theorem setTexout_y a b : (s.setTexout a b).y = s.y := rfl
@[simp] theorem setTexout_color a b : (s.setTexout a b).color = s.color := rfl
@[simp] theorem setTexout_status a b : (s.setTexout a b).status = s.status := rfl
@[simp] theorem setTexout_inLen a b : (s.setTexout a b).inLen = s.inLen := rfl
@[simp] theorem setTexout_inPtr a b : (s.setTexout a b).inPtr = s.inPtr := rfl
@[simp] theorem setTexout_inNib a b : (s.setTexout a b).inNib = s.inNib := rfl
@[simp] theorem setTexout_outLen a b : (s.setTexout a b).outLen = b := rfl
@[simp] theorem setTexout_outNib a b : (s.setTexout a b).outNib = s.outNib := rfl
@[simp] theorem setTexout_bqCnt a b : (s.setTexout a b).bqCnt = s.bqCnt := rfl
@[simp] theorem setTexout_ebCnt a b : (s.setTexout a b).ebCnt = s.ebCnt := rfl
@[simp] theorem setTexout_doneCnt a b : (s.setTexout a b).doneCnt = s.doneCnt := rfl
@[simp] theorem setTexout_bq a b : (s.setTexout a b).bq = s.bq := rfl
@[simp] theorem setTexout_eb a b : (s.setTexout a b).eb = s.eb := rfl
@[simp] theorem setTexout_texin a b : (s.setTexout a b).texin = s.texin := rfl
@[simp] theorem setTexout_texout a b : (s.setTexout a b).texout = a := rfl
@[simp] theorem setTexout_pix a b : (s.setTexout a b).pix = s.pix := rfl
@[simp] theorem setTexout_nibbleOrder a b : (s.setTexout a b).nibbleOrder = s.nibbleOrder := rfl
@[simp] theorem setTexout_script a b : (s.setTexout a b).script = s.script := rfl
@[simp] theorem setTexout_pos a b : (s.setTexout a b).pos = s.pos := rfl
@[simp] theorem setTexout_reply a b : (s.setTexout a b).reply = s.reply := rfl

@[simp] theorem setOutNib_fmt a : (s.setOutNib a).fmt = s.fmt := rfl
@[simp] theorem setOutNib_ori a : (s.setOutNib a).ori = s.ori := rfl
@[simp] theorem setOutNib_pad a : (s.setOutNib a).pad = s.pad := rfl
@[simp] theorem setOutNib_width a : (s.setOutNib a).width = s.width := rfl
@[simp] theorem setOutNib_height a : (s.setOutNib a).height = s.height := rfl
@[simp] theorem setOutNib_idx a : (s.setOutNib a).idx = s.idx := rfl
@[simp] theorem setOutNib_x a : (s.setOutNib a).x = s.x := rfl
@[simp] theorem setOutNib_y a : (s.setOutNib a).y = s.y := rfl
@[simp] theorem setOutNib_color a : (s.setOutNib a).color = s.color := rfl
@[simp] theorem setOutNib_status a : (s.setOutNib a).status = s.status := rfl
@[simp] theorem setOutNib_inLen a : (s.setOutNib a).inLen = s.inLen := rfl
@[simp] theorem setOutNib_inPtr a : (s.setOutNib a).inPtr = s.inPtr := rfl
@[simp] theorem setOutNib_inNib a : (s.setOutNib a).inNib = s.inNib := rfl
@[simp] theorem setOutNib_outLen a : (s.setOutNib a).outLen = s.outLen := rfl
@[simp] theorem setOutNib_outNib a : (s.setOutNib a).outNib = a := rfl
@[simp] theorem setOutNib_bqCnt a : (s.setOutNib a).bqCnt = s.bqCnt := rfl
@[simp] theorem setOutNib_ebCnt a : (s.setOutNib a).ebCnt = s.ebCnt := rfl
@[simp] theorem setOutNib_doneCnt a : (s.setOutNib a).doneCnt = s.doneCnt := rfl
@[simp] theorem setOutNib_bq a : (s.setOutNib a).bq = s.bq := rfl
@[simp] theorem setOutNib_eb a : (s.setOutNib a).eb = s.eb := rfl
@[simp] theorem setOutNib_texin a : (s.setOutNib a).texin = s.texin := rfl
@[simp] theorem setOutNib_texout a : (s.setOutNib a).texout = s.texout := rfl
@[simp] theorem setOutNib_pix a : (s.setOutNib a).pix = s.pix := rfl
@[simp] theorem setOutNib_nibbleOrder a : (s.setOutNib a).nibbleOrder = s.nibbleOrder := rfl
@[simp] theorem setOutNib_script a : (s.setOutNib a).script = s.script := rfl
@[simp] theorem setOutNib_pos a : (s.setOutNib a).pos = s.pos := rfl
@[simp] theorem setOutNib_reply a : (s.setOutNib a).reply = s.reply := rfl

@[simp] theorem setEb_fmt a : (s.setEb a).fmt = s.fmt := rfl
@[simp] theorem setEb_ori a : (s.setEb a).ori = s.ori := rfl
@[simp] theorem setEb_pad a : (s.setEb a).pad = s.pad := rfl
@[simp] theorem setEb_width a : (s.setEb a).width = s.width := rfl
@[simp] theorem setEb_height a : (s.setEb a).height = s.height := rfl
@[simp] theorem setEb_idx a : (s.setEb a).idx = s.idx := rfl
@[simp] theorem setEb_x a : (s.setEb a).x = s.x := rfl
@[simp] theorem setEb_y a : (s.setEb a).y = s.y := rfl
@[simp] theorem setEb_color a : (s.setEb a).color = s.color := rfl
@[simp] theorem setEb_status a : (s.setEb a).status = s.status := rfl
@[simp] theorem setEb_inLen a : (s.setEb a).inLen = s.inLen := rfl
@[simp] theorem setEb_inPtr a : (s.setEb a).inPtr = s.inPtr := rfl
@[simp] theorem setEb_inNib a : (s.setEb a).inNib = s.inNib := rfl
@[simp] theorem setEb_outLen a : (s.setEb a).outLen = s.outLen := rfl
@[simp] theorem setEb_outNib a : (s.setEb a).outNib = s.outNib := rfl
@[simp] theorem setEb_bqCnt a : (s.setEb a).bqCnt = s.bqCnt := rfl
@[simp] theorem setEb_ebCnt a : (s.setEb a).ebCnt = s.ebCnt := rfl
@[simp] theorem setEb_doneCnt a : (s.setEb a).doneCnt = s.doneCnt := rfl
@[simp] theorem setEb_bq a : (s.setEb a).bq = s.bq := rfl
@[simp] theorem setEb_eb a : (s.setEb a).eb = a := rfl
@[simp] theorem setEb_texin a : (s.setEb a).texin = s.texin := rfl
@[simp] theorem setEb_texout a : (s.setEb a).texout = s.texout := rfl
@[simp] theorem setEb_pix a : (s.setEb a).pix = s.pix := rfl
@[simp] theorem setEb_nibbleOrder a : (s.setEb a).nibbleOrder = s.nibbleOrder := rfl
@[simp] theorem setEb_script a : (s.setEb a).script = s.script := rfl
@[simp] theorem setEb_pos a : (s.setEb a).pos = s.pos := rfl
@[simp] theorem setEb_reply a : (s.setEb a).reply = s.reply := rfl

@[simp] theorem setEbCnt_fmt a : (s.setEbCnt a).fmt = s.fmt := rfl
@[simp] theorem setEbCnt_ori a : (s.setEbCnt a).ori = s.ori := rfl
@[simp] theorem setEbCnt_pad a : (s.setEbCnt a).pad = s.pad := rfl
@[simp] theorem setEbCnt_width a : (s.setEbCnt a).width = s.width := rfl
@[simp] theorem setEbCnt_height a : (s.setEbCnt a).height = s.height := rfl
@[simp] theorem setEbCnt_idx a : (s.setEbCnt a).idx = s.idx := rfl
@[simp] theorem setEbCnt_x a : (s.setEbCnt a).x = s.x := rfl
@[simp] theorem setEbCnt_y a : (s.setEbCnt a).y = s.y := rfl
@[simp] theorem setEbCnt_color a : (s.setEbCnt a).color = s.color := rfl
@[simp] theorem setEbCnt_status a : (s.setEbCnt a).status = s.status := rfl
@[simp] theorem setEbCnt_inLen a : (s.setEbCnt a).inLen = s.inLen := rfl
@[simp] theorem setEbCnt_inPtr a : (s.setEbCnt a).inPtr = s.inPtr := rfl
@[simp] theorem setEbCnt_inNib a : (s.setEbCnt a).inNib = s.inNib := rfl
@[simp] theorem setEbCnt_outLen a : (s.setEbCnt a).outLen = s.outLen := rfl
@[simp] theorem setEbCnt_outNib a : (s.setEbCnt a).outNib = s.outNib := rfl
@[simp] theorem setEbCnt_bqCnt a : (s.setEbCnt a).bqCnt = s.bqCnt := rfl
@[simp] theorem setEbCnt_ebCnt a : (s.setEbCnt a).ebCnt = a := rfl
@[simp] theorem setEbCnt_doneCnt a : (s.setEbCnt a).doneCnt = s.doneCnt := rfl
@[simp] theorem setEbCnt_bq a : (s.setEbCnt a).bq = s.bq := rfl
@[simp] theorem setEbCnt_eb a : (s.setEbCnt a).eb = s.eb := rfl
@[simp] theorem setEbCnt_texin a : (s.setEbCnt a).texin = s.texin := rfl
@[simp] theorem setEbCnt_texout a : (s.setEbCnt a).texout = s.texout := rfl
@[simp] theorem setEbCnt_pix a : (s.setEbCnt a).pix = s.pix := rfl
@[simp] theorem setEbCnt_nibbleOrder a : (s.setEbCnt a).nibbleOrder = s.nibbleOrder := rfl
@[simp] theorem setEbCnt_script a : (s.setEbCnt a).script = s.script := rfl
@[simp] theorem setEbCnt_pos a : (s.setEbCnt a).pos = s.pos := rfl
@[simp] theorem setEbCnt_reply a : (s.setEbCnt a).reply = s.reply := rfl

@[simp] theorem setDoneCnt_fmt a : (s.setDoneCnt a).fmt = s.fmt := rfl
@[simp] theorem setDoneCnt_ori a : (s.setDoneCnt a).ori = s.ori := rfl
@[simp] theorem setDoneCnt_pad a : (s.setDoneCnt a).pad = s.pad := rfl
@[simp] theorem setDoneCnt_width a : (s.setDoneCnt a).width = s.width := rfl
@[simp] theorem setDoneCnt_height a : (s.setDoneCnt a).height = s.height := rfl
@[simp] theorem setDoneCnt_idx a : (s.setDoneCnt a).idx = s.idx := rfl
@[simp] theorem setDoneCnt_x a : (s.setDoneCnt a).x = s.x := rfl
@[simp] theorem setDoneCnt_y a : (s.setDoneCnt a).y = s.y := rfl
@[simp] theorem setDoneCnt_color a : (s.setDoneCnt a).color = s.color := rfl
@[simp] theorem setDoneCnt_status a : (s.setDoneCnt a).status = s.status := rfl
@[simp] theorem setDoneCnt_inLen a : (s.setDoneCnt a).inLen = s.inLen := rfl
@[simp] theorem setDoneCnt_inPtr a : (s.setDoneCnt a).inPtr = s.inPtr := rfl
@[simp] theorem setDoneCnt_inNib a : (s.setDoneCnt a).inNib = s.inNib := rfl
@[simp] theorem setDoneCnt_outLen a : (s.setDoneCnt a).outLen = s.outLen := rfl
@[simp] theorem setDoneCnt_outNib a : (s.setDoneCnt a).outNib = s.outNib := rfl
@[simp] theorem setDoneCnt_bqCnt a : (s.setDoneCnt a).bqCnt = s.bqCnt := rfl
@[simp] theorem setDoneCnt_ebCnt a : (s.setDoneCnt a).ebCnt = s.ebCnt := rfl
@[simp] theorem setDoneCnt_doneCnt a : (s.setDoneCnt a).doneCnt = a := rfl
@[simp] theorem setDoneCnt_bq a : (s.setDoneCnt a).bq = s.bq := rfl
@[simp] theorem setDoneCnt_eb a : (s.setDoneCnt a).eb = s.eb := rfl
@[simp] theorem setDoneCnt_texin a : (s.setDoneCnt a).texin = s.texin := rfl
@[simp] theorem setDoneCnt_texout a : (s.setDoneCnt a).texout = s.texout := rfl
@[simp] theorem setDoneCnt_pix a : (s.setDoneCnt a).pix = s.pix := rfl
@[simp] theorem setDoneCnt_nibbleOrder a : (s.setDoneCnt a).nibbleOrder = s.nibbleOrder := rfl
@[simp] theorem setDoneCnt_script a : (s.setDoneCnt a).script = s.script := rfl
@[simp] theorem setDoneCnt_pos a : (s.setDoneCnt a).pos = s.pos := rfl
@[simp] theorem setDoneCnt_reply a : (s.setDoneCnt a).reply = s.reply := rfl

@[simp] theorem setTexin_fmt a : (s.setTexin a).fmt = s.fmt := rfl
@[simp] theorem setTexin_ori a : (s.setTexin a).ori = s.ori := rfl
@[simp] theorem setTexin_pad a : (s.setTexin a).pad = s.pad := rfl
@[simp] theorem setTexin_width a : (s.setTexin a).width = s.width := rfl
@[simp] theorem setTexin_height a : (s.setTexin a).height = s.height := rfl
@[simp] theorem setTexin_idx a : (s.setTexin a).idx = s.idx := rfl
@[simp] theorem setTexin_x a : (s.setTexin a).x = s.x := rfl
@[simp] theorem setTexin_y a : (s.setTexin a).y = s.y := rfl
@[simp] theorem setTexin_color a : (s.setTexin a).color = s.color := rfl
@[simp] theorem setTexin_status a : (s.setTexin a).status = s.status := rfl
@[simp] theorem setTexin_inLen a : (s.setTexin a).inLen = s.inLen := rfl
@[simp] theorem setTexin_inPtr a : (s.setTexin a).inPtr = s.inPtr := rfl
@[simp] theorem setTexin_inNib a : (s.setTexin a).inNib = s.inNib := rfl
@[simp] theorem setTexin_outLen a : (s.setTexin a).outLen = s.outLen := rfl
@[simp] theorem setTexin_outNib a : (s.setTexin a).outNib = s.outNib := rfl
@[simp] theorem setTexin_bqCnt a : (s.setTexin a).bqCnt = s.bqCnt := rfl
@[simp] theorem setTexin_ebCnt a : (s.setTexin a).ebCnt = s.ebCnt := rfl
@[simp] theorem setTexin_doneCnt a : (s.setTexin a).doneCnt = s.doneCnt := rfl
@[simp] theorem setTexin_bq a : (s.setTexin a).bq = s.bq := rfl
@[simp] theorem setTexin_eb a : (s.setTexin a).eb = s.eb := rfl
@[simp] theorem setTexin_texin a : (s.setTexin a).texin = a := rfl
@[simp] theorem setTexin_texout a : (s.setTexin a).texout = s.texout := rfl
@[simp] theorem setTexin_pix a : (s.setTexin a).pix = s.pix := rfl
@[simp] theorem setTexin_nibbleOrder a : (s.setTexin a).nibbleOrder = s.nibbleOrder := rfl
@[simp] theorem setTexin_script a : (s.setTexin a).script = s.script := rfl
@[simp] theorem setTexin_pos a : (s.setTexin a).pos = s.pos := rfl
@[simp] theorem setTexin_reply a : (s.setTexin a).reply = s.reply := rfl

@[simp] theorem setPix_fmt a : (s.setPix a).fmt = s.fmt := rfl
@[simp] theorem setPix_ori a : (s.setPix a).ori = s.ori := rfl
@[simp] theorem setPix_pad a : (s.setPix a).pad = s.pad := rfl
@[simp] theorem setPix_width a : (s.setPix a).width = s.width := rfl
@[simp] theorem setPix_height a : (s.setPix a).height = s.height := rfl
@[simp] theorem setPix_idx a : (s.setPix a).idx = s.idx := rfl
@[simp] theorem setPix_x a : (s.setPix a).x = s.x := rfl
@[simp] theorem setPix_y a : (s.setPix a).y = s.y := rfl
@[simp] theorem setPix_color a : (s.setPix a).color = s.color := rfl
@[simp] theorem setPix_status a : (s.setPix a).status = s.status := rfl
@[simp] theorem setPix_inLen a : (s.setPix a).inLen = s.inLen := rfl
@[simp] theorem setPix_inPtr a : (s.setPix a).inPtr = s.inPtr := rfl
@[simp] theorem setPix_inNib a : (s.setPix a).inNib = s.inNib := rfl
@[simp] theorem setPix_outLen a : (s.setPix a).outLen = s.outLen := rfl
@[simp] theorem setPix_outNib a : (s.setPix a).outNib = s.outNib := rfl
@[simp] theorem setPix_bqCnt a : (s.setPix a).bqCnt = s.bqCnt := rfl
@[simp] theorem setPix_ebCnt a : (s.setPix a).ebCnt = s.ebCnt := rfl
@[simp] theorem setPix_doneCnt a : (s.setPix a).doneCnt = s.doneCnt := rfl
@[simp] theorem setPix_bq a : (s.setPix a).bq = s.bq := rfl
@[simp] theorem setPix_eb a : (s.setPix a).eb = s.eb := rfl
@[simp] theorem setPix_texin a : (s.setPix a).texin = s.texin := rfl
@[simp] theorem setPix_texout a : (s.setPix a).texout = s.texout := rfl
@[simp] theorem setPix_pix a : (s.setPix a).pix = a := rfl
@[simp] theorem setPix_nibbleOrder a : (s.setPix a).nibbleOrder = s.nibbleOrder := rfl
@[simp] theorem setPix_script a : (s.setPix a).script = s.script := rfl
@[simp] theorem setPix_pos a : (s.setPix a).pos = s.pos := rfl
@[simp] theorem setPix_reply a : (s.setPix a).reply = s.reply := rfl

@[simp] theorem setHost_fmt a b : (s.setHost a b).fmt = s.fmt := rfl
@[simp] theorem setHost_ori a b : (s.setHost a b).ori = s.ori := rfl
@[simp] theorem setHost_pad a b : (s.setHost a b).pad = s.pad := rfl
@[simp] theorem setHost_width a b : (s.setHost a b).width = s.width := rfl
@[simp] theorem setHost_height a b : (s.setHost a b).height = s.height := rfl
@[simp] theorem setHost_idx a b : (s.setHost a b).idx = s.idx := rfl
@[simp] theorem setHost_x a b : (s.setHost a b).x = s.x := rfl
@[simp] theorem setHost_y a b : (s.setHost a b).y = s.y := rfl
@[simp] theorem setHost_color a b : (s.setHost a b).color = s.color := rfl
@[simp] theorem setHost_status a b : (s.setHost a b).status = s.status := rfl
@[simp] theorem setHost_inLen a b : (s.setHost a b).inLen = s.inLen := rfl
@[simp] theorem setHost_inPtr a b : (s.setHost a b).inPtr = s.inPtr := rfl
@[simp] theorem setHost_inNib a b : (s.setHost a b).inNib = s.inNib := rfl
@[simp] theorem setHost_outLen a b : (s.setHost a b).outLen = s.outLen := rfl
@[simp] theorem setHost_outNib a b : (s.setHost a b).outNib = s.outNib := rfl
@[simp] theorem setHost_bqCnt a b : (s.setHost a b).bqCnt = s.bqCnt := rfl
@[simp] theorem setHost_ebCnt a b : (s.setHost a b).ebCnt = s.ebCnt := rfl
@[simp] theorem setHost_doneCnt a b : (s.setHost a b).doneCnt = s.doneCnt := rfl
@[simp] theorem setHost_bq a b : (s.setHost a b).bq = s.bq := rfl
@[simp] theorem setHost_eb a b : (s.setHost a b).eb = s.eb := rfl
@[simp] theorem setHost_texin a b : (s.setHost a b).texin = s.texin := rfl
@[simp] theorem setHost_texout a b : (s.setHost a b).texout = s.texout := rfl
@[simp] theorem setHost_pix a b : (s.setHost a b).pix = s.pix := rfl
@[simp] theorem setHost_nibbleOrder a b : (s.setHost a b).nibbleOrder = s.nibbleOrder := rfl
@[simp] theorem setHost_script a b : (s.setHost a b).script = s.script := rfl
@[simp] theorem setHost_pos a b : (s.setHost a b).pos = a := rfl
@[simp] theorem setHost_reply a b : (s.setHost a b).reply = b := rfl

end Sys2Proof.Machine.State
end

