-- ==== Sys2Proof/Laws/Flags.lean ====
section
/-! SUPPORT. What reading a field of STATUS gives after a write of a field (R29), and the nibble registers
(R32, R34). -/

namespace Sys2Proof.Machine

theorem withBit_self (v : BitVec 8) (k : Nat) (hk : k < 8) (b : Bool) :
    (withBit v k b).getLsbD k = b := by
  cases b <;> simp [withBit, hk]

theorem withBit_other (v : BitVec 8) (k j : Nat) (h : j ≠ k) (b : Bool) :
    (withBit v k b).getLsbD j = v.getLsbD j := by
  rcases Nat.lt_or_gt_of_ne h with hlt | hgt
  · cases b <;> simp [withBit, hlt] <;> intro hv <;> have := BitVec.lt_of_getLsbD hv <;> omega
  · have hjk : ¬ j < k := by omega
    have hz : (1#8 <<< k).getLsbD j = false := by
      rw [BitVec.getLsbD_shiftLeft]; simp [hjk]; omega
    have hb : ((BitVec.ofBool b).setWidth 8 <<< k).getLsbD j = false := by
      rw [BitVec.getLsbD_shiftLeft]; cases b <;> simp [hjk]; omega
    by_cases hj : j < 8
    · simp only [withBit, BitVec.getLsbD_or, BitVec.getLsbD_and, BitVec.getLsbD_not, hz, hb]
      simp [hj]
    · rw [BitVec.getLsbD_of_ge _ _ (by omega), BitVec.getLsbD_of_ge _ _ (by omega)]

namespace State

variable (s : State)

@[simp] theorem eos_withEos (b : Bool) : (s.withEos b).eos = b :=
  withBit_self _ 1 (by decide) b
@[simp] theorem inb_withEos (b : Bool) : (s.withEos b).inb = s.inb :=
  withBit_other _ 1 2 (by decide) b
@[simp] theorem busy_withEos (b : Bool) : (s.withEos b).busy = s.busy :=
  withBit_other _ 1 0 (by decide) b
@[simp] theorem inb_withInb (b : Bool) : (s.withInb b).inb = b :=
  withBit_self _ 2 (by decide) b
@[simp] theorem eos_withInb (b : Bool) : (s.withInb b).eos = s.eos :=
  withBit_other _ 2 1 (by decide) b
@[simp] theorem busy_withInb (b : Bool) : (s.withInb b).busy = s.busy :=
  withBit_other _ 2 0 (by decide) b
@[simp] theorem busy_withBusy (b : Bool) : (s.withBusy b).busy = b :=
  withBit_self _ 0 (by decide) b
@[simp] theorem eos_withBusy (b : Bool) : (s.withBusy b).eos = s.eos :=
  withBit_other _ 0 1 (by decide) b
@[simp] theorem inb_withBusy (b : Bool) : (s.withBusy b).inb = s.inb :=
  withBit_other _ 0 2 (by decide) b

/-- `ERR` is its two bits. -/
theorem err_eq_of_bits {s t : State} (h4 : t.status.getLsbD 4 = s.status.getLsbD 4)
    (h5 : t.status.getLsbD 5 = s.status.getLsbD 5) : t.err = s.err := by
  apply BitVec.eq_of_getLsbD_eq
  intro i hi
  simp only [err, BitVec.getLsbD_extractLsb', hi]
  rcases (by omega : i = 0 ∨ i = 1) with rfl | rfl
  · rw [h4]
  · rw [h5]

@[simp] theorem err_withEos (b : Bool) : (s.withEos b).err = s.err :=
  err_eq_of_bits (withBit_other _ 1 4 (by decide) b) (withBit_other _ 1 5 (by decide) b)
@[simp] theorem err_withInb (b : Bool) : (s.withInb b).err = s.err :=
  err_eq_of_bits (withBit_other _ 2 4 (by decide) b) (withBit_other _ 2 5 (by decide) b)
@[simp] theorem err_withBusy (b : Bool) : (s.withBusy b).err = s.err :=
  err_eq_of_bits (withBit_other _ 0 4 (by decide) b) (withBit_other _ 0 5 (by decide) b)

/-- A write of `ERR` gives the code back, and keeps every bit outside 5:4. -/
theorem errWrite_spec : ∀ (v : BitVec 8) (c : BitVec 2),
    ((v &&& 0xCF#8) ||| (c.setWidth 8 <<< 4)).extractLsb' 4 2 = c ∧
      ((v &&& 0xCF#8) ||| (c.setWidth 8 <<< 4)) &&& 0xCF#8 = v &&& 0xCF#8 := by decide +kernel

@[simp] theorem err_withErr (c : BitVec 2) : (s.withErr c).err = c := (errWrite_spec s.status c).1

theorem status_withErr_bit (c : BitVec 2) (j : Nat) (hj : (0xCF#8).getLsbD j = true) :
    (s.withErr c).status.getLsbD j = s.status.getLsbD j := by
  have h := congrArg (fun w => BitVec.getLsbD w j) (errWrite_spec s.status c).2
  simp only [BitVec.getLsbD_and, hj, Bool.and_true] at h
  exact h

@[simp] theorem busy_withErr (c : BitVec 2) : (s.withErr c).busy = s.busy :=
  status_withErr_bit s c 0 (by decide)
@[simp] theorem eos_withErr (c : BitVec 2) : (s.withErr c).eos = s.eos :=
  status_withErr_bit s c 1 (by decide)
@[simp] theorem inb_withErr (c : BitVec 2) : (s.withErr c).inb = s.inb :=
  status_withErr_bit s c 2 (by decide)

end State

@[simp] theorem nibPending_holding (n : Nibble) : nibPending (nibHolding n) = true := by
  revert n; decide
@[simp] theorem nibValue_holding (n : Nibble) : nibValue (nibHolding n) = n := by
  revert n; decide
@[simp] theorem nibPending_zero : nibPending 0#8 = false := rfl
/-- A nibble register that a rule writes has no bit outside its fields (R32, R34). -/
theorem nibHolding_fields (n : Nibble) : nibHolding n &&& ~~~nibFields = 0#8 := by
  revert n; decide

end Sys2Proof.Machine
end

