-- ==== Sys2Proof/Laws/Memory.lean ====
section
/-! SUPPORT. The laws of the sparse memory: read after write, and the canonical form. -/

namespace Sys2Proof.Machine.Memory

variable {width : Nat}

@[simp] theorem read?_nil (a : Nat) : read? ([] : Memory width) a = none := rfl

@[simp] theorem read?_write_same (m : Memory width) (a : Nat) (v : BitVec width) :
    (m.write a v).read? a = some v := by
  induction m with
  | nil => simp [write, read?]
  | cons p rest ih =>
    simp only [write]
    split
    · simp [read?]
    · split
      · simp [read?]
      · simp_all [read?]

theorem read?_write_other (m : Memory width) {a b : Nat} (h : b ≠ a) (v : BitVec width) :
    (m.write a v).read? b = m.read? b := by
  induction m with
  | nil => simp [write, read?, h]
  | cons p rest ih =>
    simp only [write]
    split
    · simp [read?, h]
    · split
      · rename_i hab; subst hab; simp [read?, h]
      · simp [read?, ih]

theorem read?_write (m : Memory width) (a b : Nat) (v : BitVec width) :
    (m.write a v).read? b = if b = a then some v else m.read? b := by
  split
  · rename_i h; subst h; simp
  · rename_i h; exact read?_write_other m h v

theorem risingFrom_mono {size low low' : Nat} {m : Memory width} (h : low' ≤ low)
    (hm : m.risingFrom size low = true) : m.risingFrom size low' = true := by
  cases m with
  | nil => rfl
  | cons p rest =>
    simp only [risingFrom, Bool.and_eq_true, decide_eq_true_eq] at hm ⊢
    exact ⟨⟨by omega, hm.1.2⟩, hm.2⟩

theorem risingFrom_write {size low a : Nat} (m : Memory width) (v : BitVec width) (hlow : low ≤ a)
    (ha : a < size) (hm : m.risingFrom size low = true) :
    (m.write a v).risingFrom size low = true := by
  induction m generalizing low with
  | nil => simp [write, risingFrom, hlow, ha]
  | cons p rest ih =>
    simp only [risingFrom, Bool.and_eq_true, decide_eq_true_eq] at hm
    simp only [write]
    split
    · simp only [risingFrom, Bool.and_eq_true, decide_eq_true_eq]
      exact ⟨⟨hlow, ha⟩, ⟨by omega, hm.1.2⟩, hm.2⟩
    · split
      · rename_i hab; subst hab
        simp only [risingFrom, Bool.and_eq_true, decide_eq_true_eq]
        exact ⟨⟨hlow, ha⟩, hm.2⟩
      · simp only [risingFrom, Bool.and_eq_true, decide_eq_true_eq]
        exact ⟨hm.1, ih (by omega) hm.2⟩

/-- Writing inside the space keeps the canonical form. -/
theorem wf_write {size a : Nat} (m : Memory width) (v : BitVec width) (ha : a < size)
    (hm : m.wf size = true) : (m.write a v).wf size = true :=
  risingFrom_write m v (Nat.zero_le a) ha hm

@[simp] theorem wf_nil (size : Nat) : wf size ([] : Memory width) = true := rfl

/-- Writing past every listed address appends. -/
theorem write_past (m : Memory width) (a : Nat) (v : BitVec width)
    (h : ∀ b ∈ m.addresses, b < a) : m.write a v = m ++ [(a, v)] := by
  induction m with
  | nil => rfl
  | cons p rest ih =>
    have hp : p.1 < a := h p.1 (by simp [addresses])
    have hr : ∀ b ∈ addresses rest, b < a := fun b hb => h b (by
      simp only [addresses, List.map_cons, List.mem_cons]; exact .inr hb)
    simp only [write]
    rw [if_neg (by omega), if_neg (by omega), ih hr, List.cons_append]

/-- An append to TEXOUT holding the bytes below `n` (R33) gives the bytes below `n + 1`. -/
theorem addresses_append {m : Memory width} {n : Nat} (v : BitVec width)
    (h : m.addresses = List.range n) : (m.write n v).addresses = List.range (n + 1) := by
  rw [write_past m n v (by rw [h]; intro b hb; exact List.mem_range.mp hb)]
  simp only [addresses] at h
  simp [addresses, h, List.range_succ]

end Sys2Proof.Machine.Memory
end

