-- ==== Sys2Proof/Laws/Ops.lean ====
section
/-! SUPPORT. What each shared operation of Machine/Ops.lean can do, said once: sequencing, errors, the stream
primitives and the PIX accesses. -/

namespace Sys2Proof.Machine

/-! ### Sequencing and errors -/

@[simp] theorem andThen_next (s : State) (k : State → Result) : andThen (.next s) k = k s := rfl
@[simp] theorem andThen_fault (f : Fault) (k : State → Result) :
    andThen (.fault f) k = .fault f := rfl
@[simp] theorem andThen_refused (q : Refusal) (k : State → Result) :
    andThen (.refused q) k = .refused q := rfl

/-- A sequence answers a next state only through a next state of its first part. -/
theorem andThen_eq_next {r : Result} {k : State → Result} {t : State} :
    andThen r k = .next t ↔ ∃ s, r = .next s ∧ k s = .next t := by
  cases r <;> simp

/-- A sequence faults where its first part does, or its second part after a next state. -/
theorem andThen_eq_fault {r : Result} {k : State → Result} {f : Fault} :
    andThen r k = .fault f ↔ r = .fault f ∨ ∃ s, r = .next s ∧ k s = .fault f := by
  cases r <;> simp

theorem andThen_assoc (r : Result) (k l : State → Result) :
    andThen (andThen r k) l = andThen r fun s => andThen (k s) l := by
  cases r <;> rfl

theorem raise_eq (e : ErrorKind) (s : State) : raise e s = .next (s.withErr (errorCode e)) := rfl

/-- Raising an error sets `ERR` to its code, which is not 0 (R29, R303). -/
theorem err_raise (e : ErrorKind) (s : State) :
    (s.withErr (errorCode e)).err = errorCode e ∧ errorCode e ≠ 0#2 := by
  cases e <;> simp [errorCode]

theorem formatOf_eq_none : ∀ c : BitVec 4, formatOf c = none ↔ c = 14#4 ∨ c = 15#4 := by
  decide

theorem orientationOf_eq_none : ∀ c : BitVec 4,
    orientationOf c = none ↔ c ≠ 0#4 ∧ c ≠ 1#4 ∧ c ≠ 4#4 ∧ c ≠ 8#4 := by
  decide

theorem withFormat_some {s : State} {f : Format} (h : formatOf s.fmt = some f)
    (k : Format → Result) : withFormat s k = k f := by
  simp [withFormat, h]

theorem withFormat_none {s : State} (h : formatOf s.fmt = none) (k : Format → Result) :
    withFormat s k = .next (s.withErr 1#2) := by
  simp [withFormat, h, raise, errorCode]

theorem withOrientation_some {s : State} {o : Orientation} (h : orientationOf s.ori = some o)
    (k : Orientation → Result) : withOrientation s k = k o := by
  simp [withOrientation, h]

theorem withOrientation_none {s : State} (h : orientationOf s.ori = none)
    (k : Orientation → Result) : withOrientation s k = .next (s.withErr 2#2) := by
  simp [withOrientation, h, raise, errorCode]

/-! ### Frames: what a family of operations may change -/

/-- Only the input cursor and the decode bundle differ. -/
def InputFrame (s t : State) : Prop :=
  ∃ p n q c, t = { s with inPtr := p, inNib := n, bq := q, bqCnt := c }

/-- Only TEXOUT, its cursor and the encode bundle differ. -/
def OutputFrame (s t : State) : Prop :=
  ∃ m l n e c, t = { s with texout := m, outLen := l, outNib := n, eb := e, ebCnt := c }

theorem InputFrame.refl (s : State) : InputFrame s s := ⟨s.inPtr, s.inNib, s.bq, s.bqCnt, rfl⟩

theorem InputFrame.trans {s t u : State} : InputFrame s t → InputFrame t u → InputFrame s u := by
  rintro ⟨_, _, _, _, rfl⟩ ⟨p, n, q, c, rfl⟩
  exact ⟨p, n, q, c, rfl⟩

theorem OutputFrame.refl (s : State) : OutputFrame s s :=
  ⟨s.texout, s.outLen, s.outNib, s.eb, s.ebCnt, rfl⟩

theorem OutputFrame.trans {s t u : State} :
    OutputFrame s t → OutputFrame t u → OutputFrame s u := by
  rintro ⟨_, _, _, _, _, rfl⟩ ⟨m, l, n, e, c, rfl⟩
  exact ⟨m, l, n, e, c, rfl⟩

/-! ### Input stream -/

theorem rdByte_frame (s : State) : InputFrame s (rdByte s).2 :=
  ⟨s.inPtr + 1#32, 0#8, s.bq, s.bqCnt, rfl⟩

theorem rdWord16_frame (s : State) : InputFrame s (rdWord16 s).2 :=
  (rdByte_frame s).trans (rdByte_frame _)

/-- `rdNib` hands out the pending nibble, or reads one byte and keeps its second nibble (R72). -/
theorem rdNib_eq (s : State) :
    rdNib s =
      if nibPending s.inNib then (nibValue s.inNib, s.setInput s.inPtr 0#8)
      else
        ((splitByte s.nibbleOrder (texRead s s.inPtr.toNat)).1,
          s.setInput (s.inPtr + 1#32)
            (nibHolding (splitByte s.nibbleOrder (texRead s s.inPtr.toNat)).2)) := rfl

theorem rdNib_frame (s : State) : InputFrame s (rdNib s).2 := by
  rw [rdNib_eq]
  split
  · exact ⟨s.inPtr, 0#8, s.bq, s.bqCnt, rfl⟩
  · exact ⟨s.inPtr + 1#32, _, s.bq, s.bqCnt, rfl⟩

/-- Reading TEXIN sees only TEXIN. -/
theorem texRead_congr {s t : State} (h : t.texin = s.texin) (a : Nat) :
    texRead t a = texRead s a := by
  simp [texRead, h]

/-! ### Output stream -/

/-- An append with room writes at `OUT_LEN` and advances it (R76). -/
theorem texAppend_room {s : State} (h : s.outLen ≠ 0xFFFFFFFF#32) (b : Byte) :
    texAppend b s = .next (s.setTexout (s.texout.write s.outLen.toNat b) (s.outLen + 1#32)) :=
  if_neg h

/-- An append to a full TEXOUT is refused (R76). -/
theorem texAppend_full {s : State} (h : s.outLen = 0xFFFFFFFF#32) (b : Byte) :
    texAppend b s = .refused .texoutFull := if_pos h

/-- If an append answers a next state, it is the one R76 gives. -/
theorem texAppend_eq_next {b : Byte} {s t : State} :
    texAppend b s = .next t ↔ s.outLen ≠ 0xFFFFFFFF#32 ∧
      t = s.setTexout (s.texout.write s.outLen.toNat b) (s.outLen + 1#32) := by
  by_cases h : s.outLen = 0xFFFFFFFF#32
  · simp [texAppend, h]
  · simp [texAppend, h, eq_comm]

theorem texAppend_ne_fault (b : Byte) (s : State) (f : Fault) : texAppend b s ≠ .fault f := by
  unfold texAppend
  split <;> simp

theorem texAppend_frame {b : Byte} {s t : State} (h : texAppend b s = .next t) :
    OutputFrame s t := by
  obtain ⟨-, rfl⟩ := texAppend_eq_next.mp h
  exact ⟨s.texout.write s.outLen.toNat b, s.outLen + 1#32, s.outNib, s.eb, s.ebCnt, rfl⟩

theorem setOutNib_frame (s : State) (v : BitVec 8) : OutputFrame s (s.setOutNib v) :=
  ⟨s.texout, s.outLen, v, s.eb, s.ebCnt, rfl⟩

theorem flushNib_idle {s : State} (h : nibPending s.outNib = false) : flushNib s = .next s := by
  simp [flushNib, h]

theorem flushNib_pending {s : State} (h : nibPending s.outNib = true) :
    flushNib s =
      andThen (texAppend (joinNibbles s.nibbleOrder (nibValue s.outNib) 0#4) s)
        fun t => .next (t.setOutNib 0#8) := by
  simp [flushNib, h]

theorem flushNib_frame {s t : State} (h : flushNib s = .next t) : OutputFrame s t := by
  unfold flushNib at h
  split at h
  · obtain ⟨u, hu, rfl⟩ : ∃ u, _ ∧ _ := by simpa [andThen_eq_next] using h
    exact (texAppend_frame hu).trans (setOutNib_frame u _)
  · cases h
    exact .refl s

theorem wrByte_frame {b : Byte} {s t : State} (h : wrByte b s = .next t) : OutputFrame s t := by
  obtain ⟨u, hu, ht⟩ := andThen_eq_next.mp h
  exact (flushNib_frame hu).trans (texAppend_frame ht)

/-- With nothing pending a whole-byte write is an append (R73). -/
theorem wrByte_idle {s : State} (h : nibPending s.outNib = false) (b : Byte) :
    wrByte b s = texAppend b s := by
  simp [wrByte, flushNib_idle h]

theorem wrNib_first {s : State} (h : nibPending s.outNib = false) (v : Nibble) :
    wrNib v s = .next (s.setOutNib (nibHolding v)) := by
  simp [wrNib, h]

theorem wrNib_second {s : State} (h : nibPending s.outNib = true) (v : Nibble) :
    wrNib v s =
      andThen (texAppend (joinNibbles s.nibbleOrder (nibValue s.outNib) v) s)
        fun t => .next (t.setOutNib 0#8) := by
  simp [wrNib, h]

theorem wrNib_frame {v : Nibble} {s t : State} (h : wrNib v s = .next t) : OutputFrame s t := by
  unfold wrNib at h
  split at h
  · obtain ⟨u, hu, rfl⟩ : ∃ u, _ ∧ _ := by simpa [andThen_eq_next] using h
    exact (texAppend_frame hu).trans (setOutNib_frame u _)
  · cases h
    exact setOutNib_frame s _

theorem wrWord16_frame {w : BitVec 16} {s t : State} (h : wrWord16 w s = .next t) :
    OutputFrame s t := by
  obtain ⟨u, hu, ht⟩ := andThen_eq_next.mp h
  exact (wrByte_frame hu).trans (wrByte_frame ht)

theorem wrBytes_frame {l : List Byte} {s t : State} (h : wrBytes l s = .next t) :
    OutputFrame s t := by
  induction l generalizing s with
  | nil => cases h; exact .refl _
  | cons b rest ih =>
    obtain ⟨u, hu, ht⟩ := andThen_eq_next.mp h
    exact (wrByte_frame hu).trans (ih ht)

theorem wrNibs_frame {l : List Nibble} {s t : State} (h : wrNibs l s = .next t) :
    OutputFrame s t := by
  induction l generalizing s with
  | nil => cases h; exact .refl _
  | cons v rest ih =>
    obtain ⟨u, hu, ht⟩ := andThen_eq_next.mp h
    exact (wrNib_frame hu).trans (ih ht)

/-! No stream write faults. -/

theorem flushNib_ne_fault (s : State) (f : Fault) : flushNib s ≠ .fault f := by
  unfold flushNib
  split
  · simp [andThen_eq_fault, texAppend_ne_fault]
  · simp

theorem wrByte_ne_fault (b : Byte) (s : State) (f : Fault) : wrByte b s ≠ .fault f := by
  simp [wrByte, andThen_eq_fault, flushNib_ne_fault, texAppend_ne_fault]

theorem wrNib_ne_fault (v : Nibble) (s : State) (f : Fault) : wrNib v s ≠ .fault f := by
  unfold wrNib
  split
  · simp [andThen_eq_fault, texAppend_ne_fault]
  · simp

theorem wrWord16_ne_fault (w : BitVec 16) (s : State) (f : Fault) : wrWord16 w s ≠ .fault f := by
  simp [wrWord16, andThen_eq_fault, wrByte_ne_fault]

theorem wrBytes_ne_fault (l : List Byte) (s : State) (f : Fault) : wrBytes l s ≠ .fault f := by
  induction l generalizing s with
  | nil => simp [wrBytes]
  | cons b rest ih => simp [wrBytes, andThen_eq_fault, wrByte_ne_fault, ih]

theorem wrNibs_ne_fault (l : List Nibble) (s : State) (f : Fault) : wrNibs l s ≠ .fault f := by
  induction l generalizing s with
  | nil => simp [wrNibs]
  | cons v rest ih => simp [wrNibs, andThen_eq_fault, wrNib_ne_fault, ih]

/-! ### Pixel buffer -/

theorem pixRead_room {s : State} {a : Nat} (h : a < Config.pixWords) (k : Color → Result) :
    pixRead s a k = k (pixAt s a) := if_pos h

theorem pixWrite_room {s : State} {a : Nat} (h : a < Config.pixWords) (v : Color) :
    pixWrite s a v = .next (s.setPix (s.pix.write a v)) := if_pos h

theorem pixWrite_eq_next {s t : State} {a : Nat} {v : Color} :
    pixWrite s a v = .next t ↔ a < Config.pixWords ∧ t = s.setPix (s.pix.write a v) := by
  by_cases h : a < Config.pixWords
  · simp [pixWrite, h, eq_comm]
  · simp [pixWrite, h]

/-- Reading PIX after a write: the value written, or what was there. -/
theorem pixAt_write (s : State) (a b : Nat) (v : Color) :
    pixAt (s.setPix (s.pix.write a v)) b = if b = a then v else pixAt s b := by
  simp only [pixAt, State.setPix_pix, Memory.read?_write]
  split <;> rfl

theorem pixAt_congr {s t : State} (h : t.pix = s.pix) (a : Nat) : pixAt t a = pixAt s a := by
  simp [pixAt, h]

end Sys2Proof.Machine
end

