-- ==== Sys2Proof/Laws/Codec.lean ====
section
/-! SUPPORT. What the pixel codec's operations can do, said once: frames of decoding and encoding, and the
block-codec port's bookkeeping. -/

namespace Sys2Proof.Machine

theorem refillBundle_frame (hasAlpha : Bool) (s : State) : InputFrame s (refillBundle hasAlpha s) :=
  ⟨_, _, _, _, rfl⟩

theorem setBqCnt_frame (s : State) (c : BitVec 5) : InputFrame s (s.setBqCnt c) :=
  ⟨s.inPtr, s.inNib, s.bq, c, rfl⟩

/-- A pending bundle hands out its next color and reads nothing (R173). -/
theorem etcNext_pending {s : State} (h : s.bqCnt ≠ 0#5) (hasAlpha : Bool) :
    etcNext hasAlpha s = (nextOfBundle s, s.setBqCnt (s.bqCnt - 1#5)) := by
  simp [etcNext, h]

/-- An empty bundle is refilled first (R173). -/
theorem etcNext_empty {s : State} (h : s.bqCnt = 0#5) (hasAlpha : Bool) :
    etcNext hasAlpha s =
      (nextOfBundle (refillBundle hasAlpha s), (refillBundle hasAlpha s).setBqCnt 15#5) := by
  simp [etcNext, h, refillBundle]

theorem etcNext_frame (hasAlpha : Bool) (s : State) : InputFrame s (etcNext hasAlpha s).2 := by
  simp only [etcNext]
  split
  · exact (refillBundle_frame hasAlpha s).trans (setBqCnt_frame _ _)
  · exact setBqCnt_frame s _

/-- Decoding a pixel changes only the input cursor and the decode bundle (R172). -/
theorem decodePixel_frame (f : Format) (s : State) : InputFrame s (decodePixel f s).2 := by
  cases f
  case rgba8888 =>
    exact (((rdByte_frame s).trans (rdByte_frame _)).trans (rdByte_frame _)).trans (rdByte_frame _)
  case rgb888 => exact ((rdByte_frame s).trans (rdByte_frame _)).trans (rdByte_frame _)
  case rgba5551 => exact rdWord16_frame s
  case rgb565 => exact rdWord16_frame s
  case rgba4444 =>
    exact (((rdNib_frame s).trans (rdNib_frame _)).trans (rdNib_frame _)).trans (rdNib_frame _)
  case la88 => exact (rdByte_frame s).trans (rdByte_frame _)
  case hl88 => exact (rdByte_frame s).trans (rdByte_frame _)
  case l8 => exact rdByte_frame s
  case a8 => exact rdByte_frame s
  case la44 => exact (rdNib_frame s).trans (rdNib_frame _)
  case l4 => exact rdNib_frame s
  case a4 => exact rdNib_frame s
  case etc1 => exact etcNext_frame false s
  case etc1a4 => exact etcNext_frame true s

theorem setEb_frame (s : State) (e : Bundle) : OutputFrame s (s.setEb e) :=
  ⟨s.texout, s.outLen, s.outNib, e, s.ebCnt, rfl⟩

theorem setEbCnt_frame (s : State) (c : BitVec 4) : OutputFrame s (s.setEbCnt c) :=
  ⟨s.texout, s.outLen, s.outNib, s.eb, c, rfl⟩

/-- Collecting is a write of one entry of the bundle (R214). -/
theorem collect_eq_set (s : State) (c : Color) :
    collect s c = s.eb.set s.ebCnt.toNat c (by have := s.ebCnt.isLt; omega) := by
  ext k hk
  simp [collect, Vector.getElem_set, eq_comm]

/-- The first 15 colors of a bundle are collected and write nothing (R214). -/
theorem etcPut_collect {s : State} (h : s.ebCnt.toNat < 15) (hasAlpha : Bool) (c : Color) :
    etcPut hasAlpha c s = .next ((s.setEb (collect s c)).setEbCnt (s.ebCnt + 1#4)) := by
  simp [etcPut, h]

theorem etcPut_frame {hasAlpha : Bool} {c : Color} {s t : State}
    (h : etcPut hasAlpha c s = .next t) : OutputFrame s t := by
  simp only [etcPut] at h
  split at h
  · cases h
    exact (setEb_frame s _).trans (setEbCnt_frame _ _)
  · obtain ⟨u, hu, ht⟩ := andThen_eq_next.mp h
    cases ht
    exact ((setEb_frame s _).trans (wrBytes_frame hu)).trans (setEbCnt_frame u _)

/-- Encoding a pixel changes only TEXOUT, its cursor and the encode bundle (R210). -/
theorem encodePixel_frame {f : Format} {c : Color} {s t : State}
    (h : encodePixel f c s = .next t) : OutputFrame s t := by
  cases f
  case rgba5551 => exact wrWord16_frame h
  case rgb565 => exact wrWord16_frame h
  case rgba4444 => exact wrNibs_frame h
  case la44 => exact wrNibs_frame h
  case l4 => exact wrNibs_frame h
  case a4 => exact wrNibs_frame h
  case etc1 => exact etcPut_frame h
  case etc1a4 => exact etcPut_frame h
  all_goals exact wrBytes_frame h

theorem etcPut_ne_fault (hasAlpha : Bool) (c : Color) (s : State) (f : Fault) :
    etcPut hasAlpha c s ≠ .fault f := by
  simp only [etcPut]
  split <;> simp [andThen_eq_fault, wrBytes_ne_fault]

/-- Encoding never faults; it can only be refused by a full TEXOUT (R76). -/
theorem encodePixel_ne_fault (f : Format) (c : Color) (s : State) (x : Fault) :
    encodePixel f c s ≠ .fault x := by
  cases f <;>
    simp [encodePixel, wrBytes_ne_fault, wrNibs_ne_fault, wrWord16_ne_fault, etcPut_ne_fault]

end Sys2Proof.Machine
end

