-- ==== Sys2Proof/Laws/PerInstr.lean ====
section
/-! SUPPORT. Statements about every command, made per constructor: the encoder never emits an illegal word
(R120: the assembler never emits a word with a reserved bit set). -/

namespace Sys2Proof.Laws.LegalWord

/-- The word of a well-formed command other than the illegal one is legal by R109. -/
def Statement (i : Instr) : Prop :=
  i.wf = true → (∀ w, i ≠ .illegal w) → illegalWord (encode i) = false

/-- The operation code of a word that is put together from a code and operand bits. -/
theorem opcode_append (c : BitVec 4) (v : BitVec 28) : (c ++ v) >>> 28 = c.setWidth 32 := by
  apply BitVec.eq_of_getLsbD_eq
  intro i hi
  rw [BitVec.getLsbD_ushiftRight, BitVec.getLsbD_append, BitVec.getLsbD_setWidth]
  simp [hi]

/-- A word is legal when its code is not 0xF and its operand bits miss the reserved ones. -/
theorem legal_of_append {c : BitVec 4} {v : BitVec 28} (hc : c ≠ 15#4)
    (hv : (c ++ v) &&& reservedBits c.toNat = 0#32) : illegalWord (c ++ v) = false := by
  have h : ((c ++ v : Word) >>> 28).toNat = c.toNat := by
    rw [opcode_append]
    have := c.isLt
    simp [Nat.mod_eq_of_lt (show c.toNat < 4294967296 by omega)]
  have h15 : c.toNat ≠ 15 := fun h' => hc (BitVec.eq_of_toNat_eq (by simpa using h'))
  simp [illegalWord, h, hv, h15]

theorem nop : Statement .nop := fun _ _ => by decide
theorem dim (w h : BitVec 14) : Statement (.dim w h) := fun _ _ =>
  legal_of_append (c := 2#4) (v := h ++ w) (by decide) (by simp [reservedBits])
theorem setidx (n : BitVec 28) : Statement (.setidx n) := fun _ _ =>
  legal_of_append (c := 3#4) (by decide) (by simp [reservedBits])

/-- A word meets no bit of a mask when, bit by bit, one of the two is 0. -/
theorem and_eq_zero {w m : Word} (h : ∀ i, i < 32 → m.getLsbD i = true → w.getLsbD i = false) :
    w &&& m = 0#32 := by
  apply BitVec.eq_of_getLsbD_eq
  intro i hi
  rw [BitVec.getLsbD_and]
  cases hm : m.getLsbD i
  · simp
  · simp [h i hi hm]

/-- Format C leaves the bits 27:9 zero. -/
theorem formatC (c : BitVec 4) (f o : BitVec 4) (p : BitVec 1) :
    ((c ++ (0#19 ++ p ++ o ++ f : BitVec 28) : Word) &&& 0x0FFFFE00#32) = 0#32 := by
  refine and_eq_zero fun i hi hm => ?_
  have hr : 9 ≤ i ∧ i < 28 := by revert hm; revert hi; revert i; decide
  rw [BitVec.getLsbD_append, if_pos hr.2, BitVec.getLsbD_append, if_neg (by omega),
    BitVec.getLsbD_append, if_neg (by omega), BitVec.getLsbD_append, if_neg (by omega)]
  simp

theorem cfg (f o : BitVec 4) (p : BitVec 1) : Statement (.cfg f o p) := fun _ _ =>
  legal_of_append (c := 1#4) (v := 0#19 ++ p ++ o ++ f) (by decide) (formatC _ f o p)

/-- Format H leaves the bits 27:16 zero. -/
theorem formatH (c : BitVec 4) (m : BitVec 16) :
    ((c ++ (0#12 ++ m : BitVec 28) : Word) &&& 0x0FFF0000#32) = 0#32 := by
  refine and_eq_zero fun i hi hm => ?_
  have hr : 16 ≤ i ∧ i < 28 := by revert hm; revert hi; revert i; decide
  rw [BitVec.getLsbD_append, if_pos hr.2, BitVec.getLsbD_append, if_neg (by omega)]
  simp

theorem setclo (m : BitVec 16) : Statement (.setclo m) := fun _ _ =>
  legal_of_append (c := 4#4) (v := 0#12 ++ m) (by decide) (formatH _ m)
theorem setchi (m : BitVec 16) : Statement (.setchi m) := fun _ _ =>
  legal_of_append (c := 5#4) (v := 0#12 ++ m) (by decide) (formatH _ m)
theorem rstin : Statement .rstin := fun _ _ => by decide
theorem rstout : Statement .rstout := fun _ _ => by decide
theorem decpx : Statement .decpx := fun _ _ => by decide
theorem encpx : Statement .encpx := fun _ _ => by decide
theorem coord : Statement .coord := fun _ _ => by decide
theorem rdpix : Statement .rdpix := fun _ _ => by decide
theorem wrpix : Statement .wrpix := fun _ _ => by decide
theorem load : Statement .load := fun _ _ => by decide
theorem save : Statement .save := fun _ _ => by decide
theorem illegal (w : Word) : Statement (.illegal w) := fun _ h => absurd rfl (h w)

end Sys2Proof.Laws.LegalWord
end

