-- ==== Sys2Proof/Laws/Pipeline.lean ====
section
/-! SUPPORT. What the generator's users and the two conversion loops can do, said once. -/

namespace Sys2Proof.Machine

/-- A stored pixel changes PIX at one address, or nothing (R262, R280). -/
theorem storePixel_eq_next {s t : State} {xy : Nat × Nat} {c : Color}
    (h : storePixel s xy c = .next t) :
    (inBounds s xy = true ∧ pixAddr s xy < Config.pixWords ∧
      t = s.setPix (s.pix.write (pixAddr s xy) c)) ∨ (inBounds s xy = false ∧ t = s) := by
  unfold storePixel at h
  split at h
  · rename_i hin
    exact .inl ⟨hin, pixWrite_eq_next.mp h⟩
  · rename_i hout
    cases h
    exact .inr ⟨by simpa using hout, rfl⟩

/-- Only PIX, the input side, `STATUS` and `DONE_CNT` differ. -/
def LoadFrame (s t : State) : Prop :=
  ∃ p n q c st d m, t = { s with
    inPtr := p, inNib := n, bq := q, bqCnt := c, status := st, doneCnt := d, pix := m }

/-- Only the output side and `DONE_CNT` differ. -/
def SaveFrame (s t : State) : Prop :=
  ∃ u d, OutputFrame s u ∧ t = u.setDoneCnt d

theorem LoadFrame.refl (s : State) : LoadFrame s s :=
  ⟨s.inPtr, s.inNib, s.bq, s.bqCnt, s.status, s.doneCnt, s.pix, rfl⟩

theorem LoadFrame.trans {s t u : State} : LoadFrame s t → LoadFrame t u → LoadFrame s u := by
  rintro ⟨_, _, _, _, _, _, _, rfl⟩ ⟨p, n, q, c, st, d, m, rfl⟩
  exact ⟨p, n, q, c, st, d, m, rfl⟩

theorem InputFrame.toLoad {s t : State} : InputFrame s t → LoadFrame s t := by
  rintro ⟨p, n, q, c, rfl⟩
  exact ⟨p, n, q, c, s.status, s.doneCnt, s.pix, rfl⟩

theorem storePixel_frame {s t : State} {xy : Nat × Nat} {c : Color}
    (h : storePixel s xy c = .next t) : LoadFrame s t := by
  rcases storePixel_eq_next h with ⟨-, -, rfl⟩ | ⟨-, rfl⟩
  · exact ⟨s.inPtr, s.inNib, s.bq, s.bqCnt, s.status, s.doneCnt, _, rfl⟩
  · exact .refl _

/-- The loop of LOAD changes only what R281 lists. -/
theorem loadLoop_frame {f : Format} {o : Orientation} {left i : Nat} {s t : State}
    (h : loadLoop f o left i s = .next t) : LoadFrame s t := by
  induction left generalizing i s with
  | zero =>
    cases h
    exact ⟨s.inPtr, s.inNib, s.bq, s.bqCnt, s.status, BitVec.ofNat 29 i, s.pix, rfl⟩
  | succ left ih =>
    simp only [loadLoop] at h
    split at h
    · obtain ⟨u, hu, ht⟩ := andThen_eq_next.mp h
      exact ((decodePixel_frame f s).toLoad.trans (storePixel_frame hu)).trans (ih ht)
    · cases h
      exact ⟨s.inPtr, s.inNib, s.bq, s.bqCnt, _, BitVec.ofNat 29 i, s.pix, rfl⟩

/-- The loop of LOAD leaves `INB`, `ERR` and `BUSY` alone (R281). -/
theorem loadLoop_status {f : Format} {o : Orientation} {left i : Nat} {s t : State}
    (h : loadLoop f o left i s = .next t) :
    t.inb = s.inb ∧ t.err = s.err ∧ t.busy = s.busy := by
  induction left generalizing i s with
  | zero => cases h; exact ⟨rfl, rfl, rfl⟩
  | succ left ih =>
    simp only [loadLoop] at h
    split at h
    · obtain ⟨u, hu, ht⟩ := andThen_eq_next.mp h
      obtain ⟨p, n, q, c, hd⟩ := decodePixel_frame f s
      have hs : u.status = s.status := by
        rcases storePixel_eq_next hu with ⟨-, -, rfl⟩ | ⟨-, rfl⟩ <;> simp [hd]
      simpa [State.inb, State.err, State.busy, hs] using ih ht
    · cases h
      exact ⟨State.inb_withEos s true, State.err_withEos s true, State.busy_withEos s true⟩

/-- The loop of SAVE changes only what R286 lists. -/
theorem saveLoop_frame {f : Format} {o : Orientation} {left i : Nat} {s t : State}
    (h : saveLoop f o left i s = .next t) : SaveFrame s t := by
  induction left generalizing i s with
  | zero => cases h; exact ⟨s, _, .refl s, rfl⟩
  | succ left ih =>
    simp only [saveLoop, samplePixel, pixRead] at h
    split at h
    · obtain ⟨u, hu, ht⟩ := andThen_eq_next.mp h
      obtain ⟨v, d, hv, rfl⟩ := ih ht
      exact ⟨v, d, (encodePixel_frame hu).trans hv, rfl⟩
    · simp at h

/-- The rewound input (R136, R280). -/
theorem rewindInput_frame (s : State) : LoadFrame s (rewindInput s) :=
  ⟨0#32, 0#8, s.bq, 0#5, _, s.doneCnt, s.pix, rfl⟩

/-- The emptied output (R137, R285). -/
theorem emptyOutput_frame (s : State) : OutputFrame s (emptyOutput s) :=
  ⟨[], 0#32, 0#8, s.eb, 0#4, rfl⟩

/-- The generator sees the settings only (R240). -/
theorem coordOf_congr {s t : State} (hw : t.width = s.width) (hh : t.height = s.height)
    (hp : t.pad = s.pad) (o : Orientation) (i : Nat) : coordOf t o i = coordOf s o i := by
  cases o <;> simp [coordOf, strideFor, State.sw, State.sh, hw, hh, hp]

end Sys2Proof.Machine
end

