-- ==== Sys2Proof/Tests/Slice0.lean ====
section
/-! SUPPORT. Tests from the spec's own words, tables and vectors (95_test_vectors.md), and for each
statement with hypotheses a witness that meets them. Expected values come from the spec, never from the model. -/

set_option maxRecDepth 20000

open Sys2Proof Sys2Proof.Machine Sys2Proof.Claims

namespace Sys2Proof.Tests

/-! ### Helpers -/

/-- The outcome is a next state with the property. -/
def endsIn (r : Result) (p : State → Bool) : Bool :=
  match r with
  | .next t => p t
  | .fault _ => false
  | .refused _ => false

/-- The outcome is that refusal. -/
def refusedBy (r : Result) (q : Refusal) : Bool :=
  match r with
  | .next _ => false
  | .fault _ => false
  | .refused p => p == q

/-- Reset, with bytes in TEXIN from 0 on and `IN_LEN` their number. -/
def withInput (bytes : List Byte) (s : State) : State :=
  { s with texin := bytes.zipIdx.map fun p => (p.2, p.1), inLen := BitVec.ofNat 32 bytes.length }

/-- Reset with a format. -/
def format (code : BitVec 4) : State := { State.reset with fmt := code }

/-- Reset with dimensions, padding, orientation and format. -/
def canvas (w h : BitVec 15) (pad : BitVec 1) (ori fmt : BitVec 4) : State :=
  { State.reset with width := w, height := h, pad := pad, ori := ori, fmt := fmt }

/-- The state with one interaction of the host next. -/
def next (h : Interaction) (s : State) : State := { s with script := [h], pos := 0 }

/-- The bytes of TEXOUT. -/
def output (s : State) : List Byte := s.texout.map Prod.snd

/-- All formats. -/
def allFormats : List Format :=
  [.rgba8888, .rgb888, .rgba5551, .rgb565, .rgba4444, .la88, .hl88, .l8, .a8, .la44, .l4, .a4,
    .etc1, .etc1a4]

/-- All orientations. -/
def allOrientations : List Orientation := [.default, .transposeTile, .rotate90, .transpose]

/-! ### WellFormed smoke -/

/-- R109: a legal word is no illegal command, so these terms are ill-formed. -/
theorem test_wf_refuses_legal_words :
    ([0x00000000#32, 0x100001FF#32, 0x2FFFFFFF#32, 0x3FFFFFFF#32, 0x4000FFFF#32, 0x5000FFFF#32,
      0xE0000000#32].map fun w => (Instr.illegal w).wf) = List.replicate 7 false := by decide

/-- L2.2: the illegal words are. -/
theorem test_wf_accepts_illegal_words :
    ([0xF0000000#32, 0xFFFFFFFF#32, 0x00000001#32, 0x10000207#32, 0x40010000#32, 0x5FFF0000#32,
      0x60000001#32, 0xD8000000#32].map fun w => (Instr.illegal w).wf) = List.replicate 8 true := by
  decide

/-! ### Decoding: words written out bit by bit from R102 and R103 -/

theorem test_decode_format_z :
    [0b0000_0000000000000000000000000000#32, 0b0110_0000000000000000000000000000#32,
      0b0111_0000000000000000000000000000#32, 0b1000_0000000000000000000000000000#32,
      0b1001_0000000000000000000000000000#32, 0b1010_0000000000000000000000000000#32,
      0b1011_0000000000000000000000000000#32, 0b1100_0000000000000000000000000000#32,
      0b1101_0000000000000000000000000000#32, 0b1110_0000000000000000000000000000#32].map decode =
    [.nop, .rstin, .rstout, .decpx, .encpx, .coord, .rdpix, .wrpix, .load, .save] := by decide

/-- CFG: OP 0001, zeros 27:9, PADV 1, ORIV 0100, FMTV 0011. -/
theorem test_decode_cfg :
    decode 0b0001_0000000000000000000_1_0100_0011#32 = .cfg 0b0011#4 0b0100#4 0b1#1 := by decide

/-- DIM: OP 0010, HM1 00000000000111, WM1 00000000001111. -/
theorem test_decode_dim :
    decode 0b0010_00000000000111_00000000001111#32 = .dim 15#14 7#14 := by decide

/-- SETIDX: OP 0011, IMM28 with both end bits set. -/
theorem test_decode_setidx :
    decode 0b0011_1000000000000000000000000001#32 = .setidx 0x8000001#28 := by decide

/-- SETCLO and SETCHI: OP 0100 and 0101, zeros 27:16, IMM16 with both end bits set. -/
theorem test_decode_halves :
    decode 0b0100_000000000000_1000000000000001#32 = .setclo 0x8001#16 ∧
    decode 0b0101_000000000000_1000000000000010#32 = .setchi 0x8002#16 := by decide

/-- L2.2. -/
theorem test_decode_illegal :
    ([0xF0000000#32, 0xFFFFFFFF#32, 0x00000001#32, 0x10000207#32, 0x40010000#32, 0x5FFF0000#32,
      0x60000001#32, 0xD8000000#32].all fun w => decode w = .illegal w) = true := by decide

/-- The words of R120's examples, from the encoder. -/
theorem test_encode_examples :
    [Instr.cfg 7 0 0, .cfg 3 4 1, .dim 7 7, .dim 15 7, .dim 4 4, .setidx 2, .setchi 0xFFF8].map
      encode =
    [0x10000007#32, 0x10000143#32, 0x2001C007#32, 0x2001C00F#32, 0x20010004#32, 0x30000002#32,
      0x5000FFF8#32] := by decide

/-- The host's two entry points: the table's numbering is the word itself. -/
theorem test_table_word :
    decodeTableWord 32 0x2001C00F = some (.dim 15 7) ∧ decodeTableWord 64 0 = none := by decide

/-! ### One command (L2.1 to L2.8) -/

theorem test_nop : endsIn (exec .nop State.reset) (fun t => t == State.reset) = true := by decide

theorem test_cfg : endsIn (exec (.cfg 7 0 0) State.reset) (fun t =>
    t.fmt == 7 && t.ori == 0 && t.pad == 0 && t.sw == 8 && t.sh == 8) = true := by decide

theorem test_cfg_stores_unnamed_codes : endsIn (exec (.cfg 15 15 1) State.reset) (fun t =>
    t.fmt == 15 && t.ori == 15 && t.pad == 1 && t.err == 0) = true := by decide

theorem test_dim_largest : endsIn (exec (.dim 16383 0) State.reset) (fun t =>
    t.width == 16384 && t.height == 1 && t.sw == 16384 && t.sh == 8) = true := by decide

theorem test_dim_padding :
    endsIn (exec (.dim 16 32) State.reset) (fun t => t.sw == 32 && t.sh == 64) = true ∧
    endsIn (exec (.dim 16 32) { State.reset with pad := 0 }) (fun t => t.sw == 24 && t.sh == 40)
      = true := by decide

theorem test_setidx :
    endsIn (exec (.setidx 0xFFFFFFF) State.reset) (fun t => t.idx == 0xFFFFFFF) = true := by decide

theorem test_setchi :
    endsIn (exec (.setchi 0xFFF8) State.reset) (fun t => t.color == 0xFFF80000) = true := by decide

theorem test_setclo : endsIn (exec (.setclo 0x1234) { State.reset with color := 0xFFF80000 })
    (fun t => t.color == 0xFFF81234) = true := by decide

theorem test_rstin : endsIn (exec .rstin { State.reset with
      inLen := 9, inPtr := 7, inNib := 0x51, bqCnt := 3, status := 2 })
    (fun t => t.inPtr == 0 && t.inNib == 0 && t.bqCnt == 0 && t.eos == false && t.inLen == 9)
    = true := by decide

theorem test_rstout : endsIn (exec .rstout { State.reset with
      texout := [(0, 1), (1, 2)], outLen := 2, outNib := 0xA1, ebCnt := 9 })
    (fun t => t.outLen == 0 && t.outNib == 0 && t.ebCnt == 0 && t.texout == []) = true := by decide

/-- L2.3: format, bytes, the color under HighFirst and under LowFirst. -/
def decodeVectors : List (BitVec 4 × List Byte × Color × Color) :=
  [(0, [0x12, 0x34, 0x56, 0x78], 0x12785634, 0x12785634),
    (1, [0x12, 0x34, 0x56], 0xFF563412, 0xFF563412),
    (2, [0x12, 0x34], 0x0031844A, 0x0031844A), (2, [0x1F, 0x00], 0xFF00007B, 0xFF00007B),
    (3, [0x34, 0x12], 0xFF1045A5, 0xFF1045A5), (4, [0x12, 0x34], 0x11443322, 0x22334411)] ++
  [(5, [0x12, 0x34], 0x12343434, 0x12343434), (6, [0x12, 0x34], 0xFF3412FF, 0xFF3412FF),
    (7, [0x12], 0xFF121212, 0xFF121212), (8, [0x12], 0x12FFFFFF, 0x12FFFFFF),
    (9, [0xF0], 0xFF000000, 0x00FFFFFF), (10, [0x12], 0xFF111111, 0xFF222222),
    (11, [0x12], 0x11FFFFFF, 0x22FFFFFF)]

theorem test_decpx : (decodeVectors.all fun v =>
    endsIn (exec .decpx (withInput v.2.1 (format v.1))) (fun t =>
      t.color == v.2.2.1 && t.inPtr.toNat == v.2.1.length) &&
    endsIn (exec .decpx { withInput v.2.1 (format v.1) with nibbleOrder := .lowFirst }) (fun t =>
      t.color == v.2.2.2 && t.inPtr.toNat == v.2.1.length)) = true := by decide +kernel

/-- L2.3, corner cases: a partial pixel, a dropped nibble, a pending nibble. -/
theorem test_decpx_corners :
    endsIn (exec .decpx { format 4 with inLen := 2, inPtr := 1, inNib := 0x51 }) (fun t =>
      t.eos && t.color == 0 && t.inPtr == 1 && t.inNib == 0x51) = true ∧
    endsIn (exec .decpx
        { format 7 with texin := [(1, 0x7F)], inLen := 2, inPtr := 1, inNib := 0x51 }) (fun t =>
      t.color == 0xFF7F7F7F && t.inPtr == 2 && t.inNib == 0) = true ∧
    endsIn (exec .decpx { format 10 with inLen := 1, inPtr := 1, inNib := 0x51 }) (fun t =>
      t.color == 0xFF555555 && t.inPtr == 1 && t.inNib == 0) = true := by decide

/-- L2.4: format, the bytes of 80FF7F01 under HighFirst and under LowFirst, and `OUT_NIB` after. -/
def encodeVectors : List (BitVec 4 × List Byte × List Byte × BitVec 8) :=
  [(0, [0x80, 0x01, 0x7F, 0xFF], [0x80, 0x01, 0x7F, 0xFF], 0),
    (1, [0x01, 0x7F, 0xFF], [0x01, 0x7F, 0xFF], 0),
    (2, [0xC1, 0xFB], [0xC1, 0xFB], 0), (3, [0xE0, 0xFB], [0xE0, 0xFB], 0),
    (4, [0x80, 0x7F], [0x08, 0xF7], 0), (5, [0x80, 0x7F], [0x80, 0x7F], 0)] ++
  [(6, [0x7F, 0xFF], [0x7F, 0xFF], 0), (7, [0x7F], [0x7F], 0), (8, [0x80], [0x80], 0),
    (9, [0x87], [0x78], 0), (10, [], [], 0x71), (11, [], [], 0x81)]

theorem test_encpx : (encodeVectors.all fun v =>
    endsIn (exec .encpx { format v.1 with color := 0x80FF7F01 }) (fun t =>
      output t == v.2.1 && t.outNib == v.2.2.2) &&
    endsIn (exec .encpx { format v.1 with color := 0x80FF7F01, nibbleOrder := .lowFirst }) (fun t =>
      output t == v.2.2.1 && t.outNib == v.2.2.2)) = true := by decide +kernel

/-- P6: the flush, and L2.5: the 15th color of a block writes nothing. -/
theorem test_encpx_flush_and_collect :
    endsIn (exec .encpx { format 7 with color := 0xFF123456, outNib := 0xA1 }) (fun t =>
      output t == [0xA0, 0x34] && t.outNib == 0) = true ∧
    endsIn (exec .encpx { format 12 with color := 5, ebCnt := 14 }) (fun t =>
      t.outLen == 0 && t.ebCnt == 15 && t.eb[14] == 5) = true := by decide

/-- L2.6: width, height, padding, orientation, index; `X`, `Y`, `INB`. -/
def coordVectors :
    List (BitVec 15 × BitVec 15 × BitVec 1 × BitVec 4 × BitVec 28 × BitVec 32 × BitVec 32 × Bool) :=
  [(8, 8, 0, 0, 2, 0, 1, true), (8, 8, 0, 4, 64, 8, 7, false), (5, 5, 1, 0, 63, 7, 7, false),
    (16, 8, 0, 1, 1, 0, 1, true), (24, 40, 0, 0, 959, 23, 39, true),
    (24, 40, 0, 1, 66, 9, 0, true), (24, 40, 0, 4, 64, 0, 31, true)] ++
  [(24, 40, 0, 8, 320, 8, 0, true), (100, 20, 1, 0, 8191, 127, 63, false),
    (9, 9, 0, 4, 256, 16, 15, false), (16384, 16384, 0, 4, 0xFFFFFFF, 16383, 0, true)]

theorem test_coord : (coordVectors.all fun v =>
    endsIn (exec .coord { canvas v.1 v.2.1 v.2.2.1 v.2.2.2.1 14 with idx := v.2.2.2.2.1 }) (fun t =>
      t.x == v.2.2.2.2.2.1 && t.y == v.2.2.2.2.2.2.1 && t.inb == v.2.2.2.2.2.2.2)) = true := by
  decide +kernel

/-- L2.7. -/
theorem test_rdpix :
    endsIn (exec .rdpix { canvas 5 5 1 0 7 with x := 7, y := 2, pix := [(14, 0xFF00000E)] })
      (fun t => t.color == 0xFF00000E) = true ∧
    endsIn (exec .rdpix { canvas 5 5 1 0 7 with x := 7, y := 7, pix := [(24, 0xFF000018)] })
      (fun t => t.color == 0xFF000018) = true := by decide

theorem test_wrpix :
    endsIn (exec .wrpix { canvas 5 5 1 0 7 with x := 4, y := 4, color := 0xAABBCCDD })
      (fun t => t.pix == [(24, 0xAABBCCDD)]) = true ∧
    endsIn (exec .wrpix { canvas 5 5 1 0 7 with x := 5, y := 0, color := 0xAABBCCDD })
      (fun t => t.pix == []) = true := by decide

/-- P5: LOAD of L4 that runs out of input. -/
theorem test_load : endsIn (exec .load (withInput
      [0x0F, 0x1E, 0x2D, 0x3C, 0x4B, 0x5A, 0x69, 0x78, 0x87, 0x96] (canvas 8 8 0 0 10)))
    (fun t => t.inPtr == 10 && t.inNib == 0 && t.status == 2 && t.doneCnt == 20 &&
      t.pix.length == 20 && pixAt t 4 == 0xFF888888 && pixAt t 9 == 0xFFEEEEEE) = true := by
  decide +kernel

/-- P3: SAVE of a 1×1 image, clamped everywhere. -/
theorem test_save : endsIn (exec .save { canvas 1 1 1 0 3 with pix := [(0, 0xFFF80000)] })
    (fun t => t.outLen == 128 && t.outNib == 0 && t.doneCnt == 64 && t.status == 0 &&
      t.texout.read? 126 == some 0 && t.texout.read? 127 == some 0xF8) = true := by decide +kernel

theorem test_illegal : endsIn (exec (.illegal 0xF0000000) State.reset)
    (fun t => t == { State.reset with status := 0x30 }) = true := by decide

/-! ### Errors, the port and the host (L2.8, R80 to R82) -/

theorem test_errors :
    endsIn (exec .decpx State.reset) (fun t => t.status == 0x10) = true ∧
    endsIn (exec .load (canvas 1 1 0 2 14)) (fun t => t.status == 0x20) = true ∧
    endsIn (exec .coord (canvas 1 1 0 0 14)) (fun t => t.status == 0x04) = true ∧
    endsIn (exec .save (canvas 1 1 0 3 7)) (fun t => t.err == 2 && t.outLen == 0) = true := by decide

/-- P4: the word runs as the first instruction after reset. -/
theorem test_step_runs_the_word :
    endsIn (step (State.reset.withFetchWord 32 0x10000143)) (fun t =>
      t.fmt == 3 && t.ori == 4 && t.pad == 1 && t.pos == 1 && t.busy == false) = true := by decide

theorem test_step_halted :
    endsIn (step { State.reset.withFetchWord 32 0x10000007 with status := 0x10 }) (fun t =>
      t.fmt == 15 && t.status == 0x10 && t.pos == 1) = true := by decide

theorem test_host :
    endsIn (step (next (.writeTexin 3 0x7F) State.reset)) (fun t => t.texin == [(3, 0x7F)]) = true ∧
    endsIn (step (next (.readRegister 5) State.reset)) (fun t => t.reply == some 8) = true ∧
    endsIn (step (next .reset { canvas 5 5 0 4 7 with status := 0x30, texin := [(3, 0x7F)] }))
      (fun t => t.fmt == 15 && t.status == 0 && t.width == 1 && t.texin == [(3, 0x7F)]) = true ∧
    refusedBy (step (next (.readTexout 0) State.reset)) (.hostReadsPastTexout 0) = true := by decide

/-- The machine the host runs is this one. -/
theorem test_core_runs :
    endsIn (Host.Core.run Sys2Proof.core 1 (State.reset.withFetchWord 32 0x30000002)) (fun t =>
      t.idx == 2 && t.pos == 1) = true := by decide

/-! ### Witnesses: states and operands that meet the hypotheses of each statement, clause by clause -/

theorem test_witness_DecodeOfEncodeIsTheCommand :
    (Instr.cfg 15 15 1).wf = true ∧ (Instr.dim 0x3FFF 0x3FFF).wf = true ∧
    (Instr.setidx 0xFFFFFFF).wf = true ∧ (Instr.setclo 0xFFFF).wf = true ∧
    (Instr.setchi 0xFFFF).wf = true ∧ Instr.save.wf = true ∧
    (Instr.illegal 0xF0000000).wf = true := by decide

/-- Both ends of each format's reserved bits. -/
theorem test_witness_reservedBitSet :
    reservedBitSet 0x00000001 ∧ reservedBitSet 0xE8000000 ∧ reservedBitSet 0x10000200 ∧
    reservedBitSet 0x18000000 ∧ reservedBitSet 0x40010000 ∧ reservedBitSet 0x58000000 := by
  unfold reservedBitSet
  decide

theorem test_witness_IllegalWordsRaiseIllegalCommand :
    (offers (next (.command 0xF0000000) State.reset) (.command 0xF0000000) ∧
      ready (next (.command 0xF0000000) State.reset) ∧
      (0xF0000000#32).extractLsb' 28 4 = 0xF#4) ∧
    (offers (next (.command 0x00000001) (format 7)) (.command 0x00000001) ∧
      ready (next (.command 0x00000001) (format 7)) ∧ reservedBitSet 0x00000001) := by
  unfold reservedBitSet
  decide

theorem test_witness_StepRunsTheDecodedCommand :
    offers (next (.command 0x10000143) State.reset) (.command 0x10000143) ∧
    ready (next (.command 0x10000143) State.reset) := by decide

/-- A block halted by error `code`, with a byte in TEXOUT and an interaction next. -/
def haltedBlock (code : BitVec 8) (h : Interaction) : State :=
  next h { format 14 with status := code <<< 4, texout := [(0, 7)], outLen := 1 }

theorem test_witness_HaltedBlockIgnoresEveryWord :
    ([1#8, 2#8, 3#8].all fun c =>
      [Interaction.command 0xFFFFFFFF, .readRegister 11, .readTexin 0, .readPix 0xFFFFFFF,
        .readTexout 0, .reset].all fun h =>
        decide ((haltedBlock c h).busy = false ∧ (haltedBlock c h).err ≠ 0#2 ∧
          offers (haltedBlock c h) h) && endsIn (step (haltedBlock c h)) fun _ => true) = true ∧
    (haltedBlock 1 (.readTexout 0)).texout.read? 0 = some 7 := by decide

theorem test_witness_IdleBlockKeepsItsState :
    State.reset.script[State.reset.pos]? = none ∧
    { State.reset with script := [.reset], pos := 1 }.script[1]? = none := by decide

/-- A block in the middle of a command. -/
def busyBlock (h : Interaction) : State := next h { State.reset with status := 1 }

theorem test_witness_BusyBlockTakesNothing :
    (busyBlock (.command 0)).busy = true ∧ offers (busyBlock (.command 0)) (.command 0) ∧
    (busyBlock .reset).busy = true ∧ offers (busyBlock .reset) .reset ∧
    (busyBlock (.readRegister 0)).busy = true := by decide

theorem test_witness_ResetGivesEveryRegisterItsValue :
    offers (haltedBlock 3 .reset) .reset ∧ (haltedBlock 3 .reset).busy = false := by decide

theorem test_witness_ResetKeepsTheHostsMemories :
    offers (next .reset { canvas 5 5 0 4 7 with texin := [(3, 1)], pix := [(0, 2)] }) .reset ∧
    (next .reset { canvas 5 5 0 4 7 with texin := [(3, 1)], pix := [(0, 2)] }).busy = false := by
  decide

/-- The numbers on both sides of the last register, and a read of each memory that completes. -/
theorem test_witness_HostReadsHaveNoSideEffect :
    offers (next (.readRegister 19) State.reset) (.readRegister 19) ∧
    offers (next (.readRegister 20) State.reset) (.readRegister 20) ∧
    (next (.readRegister 20) State.reset).busy = false ∧
    ([Interaction.readRegister 19, .readTexin 0xFFFFFFFF, .readTexout 0, .readPix 0xFFFFFFF].all
      fun h =>
      let s := next h { State.reset with texout := [(0, 7)], outLen := 1 }
      decide (offers s h) && endsIn (step s) fun _ => true) = true := by decide

/-- One command for each clause that says which command writes a register. -/
theorem test_witness_RegistersByNumberAndByWriter :
    (canvas 1 16384 0 0 0).legalDims ∧
    endsIn (exec (.cfg 7 4 0) State.reset) (fun t => t.fmt != 15 && t.ori != 0 && t.pad != 1)
      = true ∧
    endsIn (exec (.dim 8 16) State.reset) (fun t =>
      t.width != 1 && t.height != 1 && t.sw != 8 && t.sh != 8) = true ∧
    endsIn (exec (.setidx 1) State.reset) (fun t => t.idx != 0) = true ∧
    endsIn (exec .coord { canvas 8 8 0 0 7 with idx := 3 }) (fun t =>
      t.x != 0 && t.y != 0 && t.inb != false) = true ∧
    endsIn (exec (.setclo 1) State.reset) (fun t => t.color != 0) = true ∧
    endsIn (exec .decpx (format 7)) (fun t => t.eos != false) = true ∧
    endsIn (exec .decpx (withInput [0x12] (format 10))) (fun t => t.inPtr != 0 && t.inNib != 0)
      = true ∧
    endsIn (exec .encpx { format 10 with color := 0x80FF7F01 }) (fun t => t.outNib != 0) = true ∧
    endsIn (exec .encpx { format 12 with color := 1 }) (fun t =>
      t.ebCnt != 0 && t.eb != State.reset.eb) = true ∧
    endsIn (exec .load { format 7 with doneCnt := 9 }) (fun t => t.doneCnt != 9) = true := by decide

theorem test_witness_MemoriesByWriter :
    endsIn (exec .encpx (format 7)) (fun t => t.texout != []) = true ∧
    endsIn (exec .wrpix (canvas 8 8 0 0 7)) (fun t => t.pix != []) = true := by decide

theorem test_witness_HostWritesAndReadsMemories :
    ([Interaction.writeTexin 0xFFFFFFFF 1, .writePix 0xFFFFFFF 1, .writeRegister 12 0xFFFFFFFF,
      .readTexin 0xFFFFFFFF, .readPix 0xFFFFFFF, .readTexout 0].all fun h =>
      let s := next h { State.reset with texout := [(0, 7)], outLen := 1 }
      decide (s.busy = false ∧ offers s h ∧ s.legalMemories ∧ (0#32).toNat < s.outLen.toNat))
      = true := by decide

theorem test_witness_ForbiddenHostAccessesAreRefused :
    ([Interaction.writeTexout 0 1, .writeRegister 11 1, .writeRegister 13 1, .readTexout 1].all
      fun h =>
      let s := next h { State.reset with texout := [(0, 7)], outLen := 1 }
      decide (s.busy = false ∧ offers s h ∧ s.outLen.toNat ≤ (1#32).toNat ∧ 11 ≠ 12)) = true := by
  decide

theorem test_witness_NopChangesNothing :
    (0x00000001#32).extractLsb' 28 4 = 0#4 ∧ 0x00000001#32 ≠ 0#32 ∧
    (0x08000000#32).extractLsb' 28 4 = 0#4 := by decide

theorem test_witness_SetcloAndSetchiReplaceHalves :
    ((0x40010000#32).extractLsb' 28 4 = 4#4 ∧ (0x40010000#32).extractLsb' 16 12 ≠ 0#12) ∧
    ((0x58000000#32).extractLsb' 28 4 = 5#4 ∧ (0x58000000#32).extractLsb' 16 12 ≠ 0#12) := by decide

theorem test_witness_UnsupportedFormatIsRaised :
    badFormat (format 14) ∧ badFormat (format 15) ∧ ¬ badOrientation (format 14) ∧
    (State.reset.err = 0 ∧ endsIn (exec .decpx State.reset) (fun t => t.err == 1) = true) := by
  decide

theorem test_witness_UnsupportedOrientationIsRaised :
    ([2, 3, 5, 6, 7, 9, 10, 11, 12, 13, 14, 15].all fun o =>
      decide (badOrientation (canvas 1 1 0 o 7))) = true ∧
    ((canvas 1 1 0 2 7).err = 0 ∧
      endsIn (exec .coord (canvas 1 1 0 2 7)) (fun t => t.err == 2) = true) := by decide

theorem test_witness_ErrorsArePrecise :
    ([Instr.decpx, .encpx, .coord, .load, .save, .illegal 0xF0000000].all fun i =>
      decide ((canvas 1 1 0 2 14).err = 0) &&
        endsIn (exec i (canvas 1 1 0 2 14)) fun t => t.err != 0) = true := by decide

theorem test_witness_ErrorPriority :
    (badOrientation (canvas 1 1 0 2 14) ∧ badFormat (canvas 1 1 0 2 14)) ∧
    (¬ badFormat (canvas 1 1 0 2 7) ∧ endsIn (exec .decpx (canvas 1 1 0 2 7)) (fun _ => true) ∧
      endsIn (exec .encpx (canvas 1 1 0 2 7)) (fun _ => true)) ∧
    (¬ badOrientation (canvas 1 1 0 8 15) ∧
      endsIn (exec .coord (canvas 1 1 0 8 15)) (fun _ => true)) ∧
    (¬ badOrientation (canvas 1 1 0 0 15) ∧ badFormat (canvas 1 1 0 0 15)) := by decide

/-- For every format the nibbles a pixel takes; the ETC formats take whole blocks. -/
def pixelBytes : List (BitVec 4 × BitVec 32) :=
  [(0, 4), (1, 3), (2, 2), (3, 2), (4, 2), (5, 2), (6, 2), (7, 1), (8, 1), (9, 1), (10, 1), (11, 1),
    (12, 8), (13, 16)]

/-- One byte less than a pixel, and exactly a pixel, for every format. -/
theorem test_witness_DecpxChecksThenDecodes :
    badFormat (format 14) ∧
    (pixelBytes.all fun v => decide (lacksPixel { format v.1 with inLen := v.2 - 1 })) = true ∧
    (pixelBytes.all fun v => decide (¬ lacksPixel { format v.1 with inLen := v.2 })) = true ∧
    (allFormats.map formatCode) = pixelBytes.map Prod.fst := by decide

/-- A pending nibble that does not help enough; an input that ends before the cursor. -/
theorem test_witness_DecpxChecksThenDecodes_lacking :
    lacksPixel { format 4 with inLen := 2, inPtr := 1, inNib := 0x51 } ∧
    lacksPixel { format 7 with inLen := 1, inPtr := 2 } := by decide

/-- A pending nibble, and a color of the bundle, that are all a pixel takes. -/
theorem test_witness_DecpxChecksThenDecodes_holding :
    ¬ lacksPixel { format 10 with inLen := 1, inPtr := 1, inNib := 0x51 } ∧
    ¬ lacksPixel { format 13 with bqCnt := 1 } := by decide

theorem test_witness_WholeByteFormatsDecode :
    ([(0#4, 4), (1#4, 3), (5#4, 2), (6#4, 2), (7#4, 1), (8#4, 1)].all fun v =>
      let s := withInput [1, 2, 3, 4] (format v.1)
      decide ((wholeByteColor s.fmt (byteAt s)).isSome ∧
        (wholeByteColor s.fmt (byteAt s)).map Prod.fst = some v.2 ∧
        v.2 ≤ available { s with inLen := BitVec.ofNat 32 v.2 })) = true := by decide

theorem test_witness_PackedFormatsDecode :
    ([2#4, 3#4].all fun f =>
      let s := withInput [0x12, 0x34] (format f)
      decide ((packedColor s.fmt (byteAt s)).isSome ∧ 2 ≤ available s)) = true := by decide

/-- Both orders, from a byte boundary and from mid-byte, with exactly the nibbles a pixel takes. -/
theorem test_witness_NibbleFormatsDecode :
    ([Config.NibbleOrder.highFirst, .lowFirst].all fun o =>
      [(4#4, 4, 2#32, 0#8), (4#4, 4, 3#32, 0x51#8), (9#4, 2, 1#32, 0#8), (9#4, 2, 2#32, 0x51#8),
        (10#4, 1, 1#32, 0#8), (10#4, 1, 0#32, 0x51#8), (11#4, 1, 1#32, 0#8),
        (11#4, 1, 0#32, 0x51#8)].all fun v =>
        let s := { withInput [1, 2, 3] (format v.1) with
          inLen := v.2.2.1, inNib := v.2.2.2, nibbleOrder := o }
        decide ((nibbleColor s.fmt (streamNibble s)).map Prod.fst = some v.2.1 ∧
          v.2.1 ≤ inPending s + 2 * available s)) = true := by decide

/-- A full bundle and its last color, and a refill that takes the whole input, for both formats. -/
theorem test_witness_EtcFormatsDecode :
    ([12#4, 13#4].all fun f => [1#5, 16#5].all fun n =>
      decide (0 < ({ format f with bqCnt := n } : State).bqCnt.toNat ∧
        ({ format f with bqCnt := n } : State).bqCnt.toNat ≤ 16)) = true ∧
    (({ format 12 with inLen := 8 } : State).bqCnt = 0 ∧
      8 ≤ available { format 12 with inLen := 8 }) ∧
    (({ format 13 with inLen := 16 } : State).bqCnt = 0 ∧
      16 ≤ available { format 13 with inLen := 16 }) := by decide

/-- With nothing pending and with a nibble pending, in the last bytes of TEXOUT. -/
theorem test_witness_WholeByteFormatsEncode :
    ([0#4, 1#4, 5#4, 6#4, 7#4, 8#4].all fun f =>
      [(0#8, 0xFFFFFFFB#32), (0xA1#8, 0xFFFFFFFA#32)].all fun v =>
        let s := { format f with outNib := v.1, outLen := v.2 }
        decide ((wholeBytes s.fmt s.color).isSome ∧
          roomFor s ((flushed s).length + ((wholeBytes s.fmt s.color).getD []).length))) = true := by
  decide

theorem test_witness_PackedFormatsEncode :
    ([2#4, 3#4].all fun f =>
      [(0#8, 0xFFFFFFFD#32), (0xA1#8, 0xFFFFFFFC#32)].all fun v =>
        let s := { format f with outNib := v.1, outLen := v.2 }
        decide ((packedWord s.fmt s.color).isSome ∧ roomFor s ((flushed s).length + 2))) = true := by
  decide

theorem test_witness_NibbleFormatsEncode :
    ([4#4, 9#4, 10#4, 11#4].all fun f => [0#8, 0xA1#8].all fun n =>
      [Config.NibbleOrder.highFirst, .lowFirst].all fun o =>
        let s := { format f with outNib := n, outLen := 0xFFFFFFFD, nibbleOrder := o }
        decide ((nibblesOf s.fmt s.color).isSome ∧
          roomFor s (paired o (outPending s ++ (nibblesOf s.fmt s.color).getD [])).1.length))
      = true := by decide

/-- The 15th and the 16th color of a block, for both formats. -/
theorem test_witness_EtcFormatsEncode :
    ([true, false].all fun a =>
      let s := format (if a then 13#4 else 12#4)
      decide (({ s with ebCnt := 14 } : State).ebCnt.toNat < 15 ∧
        ({ s with ebCnt := 15 } : State).ebCnt = 15#4 ∧
        roomFor s ((flushed s).length + Config.etcBytes a))) = true := by decide

/-- The last free place and none. -/
theorem test_witness_FullTexoutRefusesAnAppend :
    0xFFFFFFFE#32 ≠ 0xFFFFFFFF#32 ∧
    ([0#4, 1#4, 5#4, 6#4, 7#4, 8#4].all fun f =>
      let s := { format f with outLen := 0xFFFFFFFF, outNib := 0xA1 }
      decide ((wholeBytes s.fmt s.color).isSome ∧ s.outLen = 0xFFFFFFFF#32 ∧
        ¬ roomFor s ((flushed s).length + ((wholeBytes s.fmt s.color).getD []).length))) = true ∧
    (let s := { format 0 with outLen := 0xFFFFFFFC };
      (wholeBytes s.fmt s.color).isSome = true ∧ ¬ roomFor s ((flushed s).length + 4)) := by decide

/-- One place too few, in the formats of packed words, nibbles and blocks. -/
theorem test_witness_FullTexoutRefusesAnAppend_other_formats :
    ([2#4, 3#4].all fun f =>
      let s := { format f with outLen := 0xFFFFFFFE }
      decide ((packedWord s.fmt s.color).isSome ∧ ¬ roomFor s ((flushed s).length + 2))) = true ∧
    ([(4#4, 0#8, 0xFFFFFFFE#32), (9#4, 0#8, 0xFFFFFFFF#32), (10#4, 0xA1#8, 0xFFFFFFFF#32),
      (11#4, 0xA1#8, 0xFFFFFFFF#32)].all fun v =>
      let s := { format v.1 with outNib := v.2.1, outLen := v.2.2 }
      decide ((nibblesOf s.fmt s.color).isSome ∧
        ¬ roomFor s (paired s.nibbleOrder
          (outPending s ++ (nibblesOf s.fmt s.color).getD [])).1.length)) = true ∧
    ([(true, 0xFFFFFFF0#32), (false, 0xFFFFFFF8#32)].all fun v =>
      let s := { format (if v.1 then 13 else 12) with ebCnt := 15, outLen := v.2 }
      decide (s.fmt = (if v.1 then 13#4 else 12#4) ∧ s.ebCnt = 15#4 ∧
        ¬ roomFor s ((flushed s).length + Config.etcBytes v.1))) = true := by decide

/-- The two ends of the dimensions, under every orientation, with an index in the canvas and past it. -/
theorem test_witness_generator :
    (allOrientations.all fun o =>
      decide ((canvas 1 1 0 (orientationCode o) 14).ori = orientationCode o ∧
        (canvas 1 1 0 (orientationCode o) 14).legalDims ∧
        (canvas 16384 16384 1 (orientationCode o) 14).legalDims ∧
        (canvas 1 1 0 0 14).sw * (canvas 1 1 0 0 14).sh ≤
          ({ canvas 1 1 0 0 14 with idx := 64 } : State).idx.toNat)) = true := by decide

theorem test_witness_CoordEvaluatesTheGenerator :
    ((canvas 5 16384 1 4 15).ori = orientationCode .rotate90 ∧ (canvas 5 16384 1 4 15).legalDims) ∧
    badOrientation (canvas 1 1 0 15 0) := by decide

/-- The last index of a 9×9 canvas without padding and a coordinate of it. -/
theorem test_witness_GeneratorIsABijection :
    (canvas 9 9 0 0 7).legalDims ∧ 255 < (canvas 9 9 0 0 7).sw * (canvas 9 9 0 0 7).sh ∧
    15 < (canvas 9 9 0 0 7).sw ∧ 15 < (canvas 9 9 0 0 7).sh := by decide

theorem test_witness_IndicesPastTheEndAreOutside :
    (allOrientations.all fun o =>
      let s := { canvas 9 9 0 (orientationCode o) 7 with idx := 256 }
      decide (s.legalDims ∧ s.ori = orientationCode o ∧ s.sw * s.sh ≤ 256 ∧
        s.sw * s.sh ≤ s.idx.toNat)) = true := by decide

theorem test_witness_SixteenIndicesFillASquare :
    (canvas 16384 1 1 0 7).legalDims ∧ (canvas 1 16384 0 8 7).legalDims := by decide

theorem test_witness_RdpixReadsTheClampedPixel :
    ({ canvas 5 3 1 0 15 with x := 0xFFFFFFFF, y := 2 } : State).legalDims := by decide

/-- The last pixel of the buffer, and one past it on each axis. -/
theorem test_witness_WrpixWritesInsideOnly :
    (let s := { canvas 5 3 1 0 15 with x := 4, y := 2 };
      s.legalDims ∧ inside s (s.x.toNat, s.y.toNat)) ∧
    (let s := { canvas 5 3 1 0 15 with x := 5, y := 2 };
      s.legalDims ∧ ¬ inside s (s.x.toNat, s.y.toNat)) ∧
    (let s := { canvas 5 3 1 0 15 with x := 4, y := 3 };
      ¬ inside s (s.x.toNat, s.y.toNat)) := by decide

/-- The settings of every conversion, at both ends of the dimensions. -/
theorem test_witness_settings :
    (allFormats.all fun f => allOrientations.all fun o =>
      decide (settings (canvas 1 16384 0 (orientationCode o) (formatCode f)) f o ∧
        settings (canvas 16384 1 1 (orientationCode o) (formatCode f)) f o)) = true := by
  decide +kernel

theorem test_witness_LoadChangesOnlyItsOwn :
    settings (withInput [0x12] (canvas 5 3 1 4 10)) .l4 .rotate90 ∧
    endsIn (exec .load (withInput [0x12] (canvas 5 3 1 4 10))) (fun t => t.doneCnt == 2) = true := by
  decide

/-- Exactly enough input, and one byte less, for every format. -/
theorem test_witness_LoadConsumesTheInput :
    (allFormats.all fun f =>
      let bytes := BitVec.ofNat 32 (64 * bitsPerPixel f / 8)
      let s := { canvas 8 8 0 0 (formatCode f) with inLen := bytes }
      let u := { canvas 8 8 0 0 (formatCode f) with inLen := bytes - 1 }
      decide (settings s f .default ∧ s.sw * s.sh ≤ pixelsHeld f s.inLen.toNat ∧
        pixelsHeld f u.inLen.toNat < u.sw * u.sh)) = true := by decide +kernel

theorem test_witness_LoadIsTheStepSequence :
    (let s := { canvas 5 3 1 1 13 with inLen := 64 };
      settings s .etc1a4 .transposeTile ∧ s.sw * s.sh ≤ pixelsHeld .etc1a4 s.inLen.toNat) ∧
    (let s := { canvas 5 3 1 8 1 with inLen := 192 };
      settings s .rgb888 .transpose ∧ s.sw * s.sh ≤ pixelsHeld .rgb888 s.inLen.toNat) := by decide

/-- For every format an input that runs out, and its last whole pixel, inside the buffer: in mid-byte for
L4 and A4, at the end of a block for the ETC formats. -/
theorem test_witness_LoadPairsStreamAndCoordinates :
    (allFormats.all fun f =>
      let s := { canvas 8 8 0 4 (formatCode f) with inLen := 17 }
      let i := pixelsHeld f 17 - 1
      decide (settings s f .rotate90 ∧ i < s.sw * s.sh ∧ i < pixelsHeld f s.inLen.toNat ∧
        inside s (coordinate s .rotate90 i))) = true := by decide +kernel

theorem test_witness_SaveWritesWholeOutput :
    settings (canvas 5 3 1 4 12) .etc1 .rotate90 := by decide

theorem test_witness_SaveIsTheStepSequence :
    settings (canvas 5 3 0 8 10) .l4 .transpose := by decide

theorem test_witness_SaveOfLuminanceReadsClampedGreen :
    settings (canvas 2 2 0 0 7) .l8 .default ∧
    63 < (canvas 2 2 0 0 7).sw * (canvas 2 2 0 0 7).sh := by decide

theorem test_witness_SaveThenLoadRestoresThePicture :
    settings (canvas 5 3 1 4 0) .rgba8888 .rotate90 ∧ 4 < (canvas 5 3 1 4 0).width.toNat ∧
    2 < (canvas 5 3 1 4 0).height.toNat := by decide

/-- Exactly one round of bytes left in the input and in TEXOUT, under both orders. -/
theorem test_witness_DecodeThenEncodeGivesTheBytesBack :
    (allFormats.take 12 |>.all fun f =>
      [Config.NibbleOrder.highFirst, .lowFirst].all fun o =>
        let n := roundTripBytes f
        let s := { withInput [1, 2, 3, 4] (format (formatCode f)) with
          inLen := BitVec.ofNat 32 n, outLen := 0xFFFFFFFF - BitVec.ofNat 32 n, nibbleOrder := o }
        decide (s.fmt = formatCode f ∧ f ≠ .etc1 ∧ f ≠ .etc1a4 ∧ inPending s = 0 ∧
          outPending s = [] ∧ n ≤ available s ∧ roomFor s n)) = true := by decide +kernel

theorem test_witness_EveryStepKeepsTheStateLegal :
    (next (.command 0xD0000000) (canvas 8 8 0 0 7)).legal ∧
    endsIn (step (next (.command 0xD0000000) (canvas 8 8 0 0 7))) (fun _ => true) = true := by decide

theorem test_witness_LegalDimensionsNeverFault :
    ({ canvas 16384 16384 0 0 0 with x := 0xFFFFFFFF, y := 0xFFFFFFFF } : State).legalDims := by
  decide

end Sys2Proof.Tests
end

/-! Reset (R41, R330): what the step does when the host offers an interaction, what the reset input leaves, and
the reset values. -/

namespace Sys2Proof.Machine

open Sys2Proof.Claims

/-- The step takes the interaction the host offers (R80). -/
theorem step_eq_interact {s : State} {h : Interaction} (hs : offers s h) : step s = interact h s := by
  simp only [step, portStep, hs]

/-- A block with no command running lets a host access through (R341). -/
theorem whenIdle_of_idle {s : State} (r : Result) (hb : s.busy = false) : whenIdle s r = r := by
  simp [whenIdle, hb]

/-- The reset input of an idle block (R330): the block after power-on, but for the memories, the parameter and
the script of the host. -/
theorem step_reset_of_idle {s : State} (hs : offers s .reset) (hb : s.busy = false) :
    step s = .next { State.reset with
      texin := s.texin, pix := s.pix, nibbleOrder := s.nibbleOrder,
      script := s.script, pos := s.pos + 1 } := by
  rw [step_eq_interact hs]
  exact whenIdle_of_idle _ hb

/-- `SW` at reset: the padded width of 1 (R25, R41). -/
theorem reset_sw : State.reset.sw = 8 := by decide

/-- `SH` at reset: the padded height of 1 (R25, R41). -/
theorem reset_sh : State.reset.sh = 8 := by decide

end Sys2Proof.Machine

namespace Sys2Proof.Proofs

open Sys2Proof.Machine

/-- Settles O9: the state at power-on has the reset values, and the reset input of an idle block leaves a state
that differs from it in the host's fields only. -/
theorem resetGivesEveryRegisterItsValue : Obligations.ResetGivesEveryRegisterItsValue := by
  unfold Obligations.ResetGivesEveryRegisterItsValue
  intro atReset
  have atPowerOn : atReset State.reset := by
    simp only [atReset, reset_sw, reset_sh]
    simp [State.reset]
  refine ⟨atPowerOn, fun s hs hb => ⟨_, step_reset_of_idle hs hb, ?_⟩⟩
  -- `atReset` reads none of the fields in which the state differs from `State.reset`.
  exact atPowerOn

end Sys2Proof.Proofs

/-! The host's accesses (R80 to R82): the step of an idle block, and the writes and reads it refuses. -/

namespace Sys2Proof.Machine

open Sys2Proof.Claims

/-- A write to TEXOUT offered to an idle block is refused (R82). -/
theorem step_writeTexout_of_idle {s : State} {a : Word} {b : Byte} (hs : offers s (.writeTexout a b))
    (hb : s.busy = false) : step s = .refused .hostWritesTexout := by
  rw [step_eq_interact hs]
  exact whenIdle_of_idle _ hb

/-- A register write offered to an idle block is `writeRegister` (R81, R82). -/
theorem step_writeRegister_of_idle {s : State} {n : Nat} {v : Word}
    (hs : offers s (.writeRegister n v)) (hb : s.busy = false) : step s = writeRegister n v s := by
  rw [step_eq_interact hs]
  exact whenIdle_of_idle _ hb

/-- A TEXOUT read offered to an idle block is `readTexout` (R80, R82). -/
theorem step_readTexout_of_idle {s : State} {a : Word} (hs : offers s (.readTexout a))
    (hb : s.busy = false) : step s = readTexout a.toNat s := by
  rw [step_eq_interact hs]
  exact whenIdle_of_idle _ hb

/-- Every register but `IN_LEN` refuses the host's write (R82). -/
theorem writeRegister_of_ne_inLen {n : Nat} (v : Word) (s : State) (hn : n ≠ 12) :
    writeRegister n v s = .refused (.hostWritesRegister n) := if_neg hn

/-- A read at or above `OUT_LEN` is refused, whatever TEXOUT lists (R82). -/
theorem readTexout_of_outLen_le {a : Nat} {s : State} (ha : s.outLen.toNat ≤ a) :
    readTexout a s = .refused (.hostReadsPastTexout a) := if_neg (Nat.not_lt.mpr ha)

end Sys2Proof.Machine

namespace Sys2Proof.Proofs

open Sys2Proof.Machine

/-- Settles O15: an idle block takes the access itself, and each of the three forbidden ones is refused. -/
theorem forbiddenHostAccessesAreRefused : Obligations.ForbiddenHostAccessesAreRefused := by
  unfold Obligations.ForbiddenHostAccessesAreRefused
  intro s hb
  refine ⟨?writeTexout, ?writeRegister, ?readTexout⟩
  case writeTexout =>
    intro a b hs
    exact step_writeTexout_of_idle hs hb
  case writeRegister =>
    intro n v hn hs
    rw [step_writeRegister_of_idle hs hb, writeRegister_of_ne_inLen v s hn]
  case readTexout =>
    intro a ha hs
    rw [step_readTexout_of_idle hs hb, readTexout_of_outLen_le ha]

end Sys2Proof.Proofs

/-! Decoding a word that is put together from an operation code and its operand bits (R101 to R103), and SETIDX
(R107, R133). -/

namespace Sys2Proof

/-- `OP` is the upper part of a word put together from a code and operand bits (R101). -/
@[simp] theorem opField_append (c : BitVec 4) (v : BitVec 28) : opField (c ++ v) = c :=
  BitVec.extractLsb'_append_eq_left

/-- Format I takes all 28 operand bits, whatever their value (R102, R107). -/
@[simp] theorem decodeI_append (c : BitVec 4) (v : BitVec 28) :
    decodeI (c ++ v) = .ok (.setidx v) := by
  rw [decodeI, BitVec.extractLsb'_append_eq_right]

/-- The opcode map at code 3 (R103). -/
theorem decodeCommand_of_opField_eq_three {w : Word} (h : opField w = 0x3#4) :
    decodeCommand w = decodeI w := by
  unfold decodeCommand
  rw [h]
  rfl

/-- A word that the opcode map and its reserved-bit check accept decodes to that command (R110). -/
theorem decode_of_decodeCommand_eq_ok {w : Word} {i : Instr} (h : decodeCommand w = .ok i) :
    decode w = i := by
  unfold decode
  rw [h]

/-- A word of code 3 is SETIDX of its 28 operand bits (R103, R107). -/
theorem decode_setidx_word (n : BitVec 28) : decode (0x3#4 ++ n) = .setidx n := by
  have hmap : decodeCommand (0x3#4 ++ n) = decodeI (0x3#4 ++ n) :=
    decodeCommand_of_opField_eq_three (opField_append 0x3#4 n)
  exact decode_of_decodeCommand_eq_ok (hmap.trans (decodeI_append 0x3#4 n))

end Sys2Proof

namespace Sys2Proof.Machine

/-- SETIDX completes and writes `IDX` (R133). -/
theorem exec_setidx (n : BitVec 28) (s : State) : exec (.setidx n) s = .next (s.setIdx n) := rfl

end Sys2Proof.Machine

namespace Sys2Proof.Proofs

open Sys2Proof.Machine

/-- Settles O19: format I has no reserved bits, so every value decodes, and the command writes `IDX` alone. -/
theorem setidxSetsTheIndex : Obligations.SetidxSetsTheIndex := by
  unfold Obligations.SetidxSetsTheIndex
  refine ⟨?decodes, ?executes⟩
  case decodes => exact decode_setidx_word
  case executes =>
    -- `setIdx` is the record update of `idx`.
    exact exec_setidx

end Sys2Proof.Proofs

/-! The rest of the opcode map that configuration and stream control use (R103), their operand fields (R102) and
the words that set a reserved bit (R109). -/

namespace Sys2Proof

/-! ### The opcode map -/

/-- The opcode map at code 0 (R103). -/
theorem decodeCommand_of_opField_eq_zero {w : Word} (h : opField w = 0x0#4) :
    decodeCommand w = decodeZ w .nop := by
  simp [decodeCommand, h]

/-- The opcode map at code 1 (R103). -/
theorem decodeCommand_of_opField_eq_one {w : Word} (h : opField w = 0x1#4) :
    decodeCommand w = decodeC w := by
  simp [decodeCommand, h]

/-- The opcode map at code 2 (R103). -/
theorem decodeCommand_of_opField_eq_two {w : Word} (h : opField w = 0x2#4) :
    decodeCommand w = decodeD w := by
  simp [decodeCommand, h]

/-- The opcode map at code 4 (R103). -/
theorem decodeCommand_of_opField_eq_four {w : Word} (h : opField w = 0x4#4) :
    decodeCommand w = decodeH w .setclo := by
  simp [decodeCommand, h]

/-- The opcode map at code 5 (R103). -/
theorem decodeCommand_of_opField_eq_five {w : Word} (h : opField w = 0x5#4) :
    decodeCommand w = decodeH w .setchi := by
  simp [decodeCommand, h]

/-! ### Operand fields -/

/-- A field below `OP` is read from the operand bits alone (R101, R102). -/
theorem extractLsb'_operand (c : BitVec 4) (v : BitVec 28) {start len : Nat}
    (h : start + len ≤ 28) : (c ++ v : Word).extractLsb' start len = v.extractLsb' start len :=
  BitVec.extractLsb'_append_eq_of_add_le h

/-- Format C gives back its three fields and has only zeros above them (R102). -/
theorem formatC_fields (f o : BitVec 4) (p : BitVec 1) (v : BitVec 28)
    (hv : v = 0#19 ++ p ++ o ++ f) :
    v.extractLsb' 0 4 = f ∧ v.extractLsb' 4 4 = o ∧ v.extractLsb' 8 1 = p ∧
      v.extractLsb' 9 19 = 0#19 := by
  subst hv
  -- Dropping FMTV, then ORIV, then PADV leaves the next field lowest.
  have dropF {k n : Nat} (h : 4 ≤ k) :
      (0#19 ++ p ++ o ++ f).extractLsb' k n = (0#19 ++ p ++ o).extractLsb' (k - 4) n :=
    BitVec.extractLsb'_append_eq_of_le h
  have dropO {k n : Nat} (h : 4 ≤ k) :
      (0#19 ++ p ++ o).extractLsb' k n = (0#19 ++ p).extractLsb' (k - 4) n :=
    BitVec.extractLsb'_append_eq_of_le h
  refine ⟨BitVec.extractLsb'_append_eq_right, ?ori, ?pad, ?reserved⟩
  case ori => exact (dropF (by decide)).trans BitVec.extractLsb'_append_eq_right
  case pad =>
    exact ((dropF (by decide)).trans (dropO (by decide))).trans BitVec.extractLsb'_append_eq_right
  case reserved =>
    exact ((dropF (by decide)).trans (dropO (by decide))).trans BitVec.extractLsb'_append_eq_left

/-- Format C takes any three fields with zeros above them (R102, R131). -/
theorem decodeC_append (c f o : BitVec 4) (p : BitVec 1) :
    decodeC (c ++ (0#19 ++ p ++ o ++ f)) = .ok (.cfg f o p) := by
  obtain ⟨hf, ho, hp, hres⟩ := formatC_fields f o p _ rfl
  rw [decodeC, extractLsb'_operand c _ (by decide), extractLsb'_operand c _ (by decide),
    extractLsb'_operand c _ (by decide), extractLsb'_operand c _ (by decide), hf, ho, hp, hres,
    if_pos rfl]

/-- Format D takes any two fields (R102, R132). -/
theorem decodeD_append (c : BitVec 4) (wm1 hm1 : BitVec 14) :
    decodeD (c ++ (hm1 ++ wm1)) = .ok (.dim wm1 hm1) := by
  rw [decodeD, extractLsb'_operand c _ (by decide), extractLsb'_operand c _ (by decide),
    BitVec.extractLsb'_append_eq_right, BitVec.extractLsb'_append_eq_left]

/-- Format H takes any half with zeros above it (R102, R134, R135). -/
theorem decodeH_append (c : BitVec 4) (h : BitVec 16) (make : BitVec 16 → Instr) :
    decodeH (c ++ (0#12 ++ h)) make = .ok (make h) := by
  rw [decodeH, extractLsb'_operand c _ (by decide), extractLsb'_operand c _ (by decide),
    BitVec.extractLsb'_append_eq_right, BitVec.extractLsb'_append_eq_left, if_pos rfl]

/-- A word is its `OP` above its operand bits (R101). -/
theorem opField_append_operand (w : Word) : opField w ++ w.extractLsb' 0 28 = w :=
  (BitVec.extractLsb'_append_extractLsb'_eq_extractLsb' rfl).trans BitVec.extractLsb'_eq_self

/-! ### Illegal words -/

/-- A word that the opcode map or its reserved-bit check rejects is illegal (R109, R110). -/
theorem decode_of_decodeCommand_eq_error {w : Word} {r : DecodeReject}
    (h : decodeCommand w = .error r) : decode w = .illegal w := by
  unfold decode
  rw [h]

/-- Format Z rejects every word whose operand bits are not all 0 (R102, R109). -/
theorem decodeZ_of_reserved_ne_zero {w : Word} (i : Instr) (h : w.extractLsb' 0 28 ≠ 0#28) :
    decodeZ w i = .error .reservedBit := if_neg h

/-- Format H rejects every word with a bit of 27:16 set (R102, R109). -/
theorem decodeH_of_reserved_ne_zero {w : Word} (make : BitVec 16 → Instr)
    (h : w.extractLsb' 16 12 ≠ 0#12) : decodeH w make = .error .reservedBit := if_neg h

/-- With `OP` 0 only the all-zero word has no reserved bit set (R103, R130). -/
theorem reserved_ne_zero_of_opField_eq_zero {w : Word} (hop : opField w = 0#4) (hw : w ≠ 0#32) :
    w.extractLsb' 0 28 ≠ 0#28 := by
  intro hres
  have hzero : w = 0#4 ++ 0#28 := by
    rw [← hop, ← hres]
    exact (opField_append_operand w).symm
  exact hw hzero

/-! ### The words of the commands -/

/-- With `OP` 0 and a reserved bit set a word is illegal (R109, R130). -/
theorem decode_eq_illegal_of_opField_eq_zero {w : Word} (hop : opField w = 0#4) (hw : w ≠ 0#32) :
    decode w = .illegal w := by
  have hmap : decodeCommand w = decodeZ w .nop := decodeCommand_of_opField_eq_zero hop
  have hres : w.extractLsb' 0 28 ≠ 0#28 := reserved_ne_zero_of_opField_eq_zero hop hw
  exact decode_of_decodeCommand_eq_error (hmap.trans (decodeZ_of_reserved_ne_zero _ hres))

/-- A word of code 1 with zeros in 27:9 is CFG of its three fields (R103, R131). -/
theorem decode_cfg_word (f o : BitVec 4) (p : BitVec 1) :
    decode (0x1#4 ++ (0#19 ++ p ++ o ++ f)) = .cfg f o p := by
  have hmap := decodeCommand_of_opField_eq_one (opField_append 0x1#4 (0#19 ++ p ++ o ++ f))
  exact decode_of_decodeCommand_eq_ok (hmap.trans (decodeC_append 0x1#4 f o p))

/-- A word of code 2 is DIM of its two fields (R103, R132). -/
theorem decode_dim_word (wm1 hm1 : BitVec 14) :
    decode (0x2#4 ++ (hm1 ++ wm1)) = .dim wm1 hm1 := by
  have hmap := decodeCommand_of_opField_eq_two (opField_append 0x2#4 (hm1 ++ wm1))
  exact decode_of_decodeCommand_eq_ok (hmap.trans (decodeD_append 0x2#4 wm1 hm1))

/-- A word of code 4 with zeros in 27:16 is SETCLO of its half (R103, R134). -/
theorem decode_setclo_word (h : BitVec 16) : decode (0x4#4 ++ (0#12 ++ h)) = .setclo h := by
  have hmap := decodeCommand_of_opField_eq_four (opField_append 0x4#4 (0#12 ++ h))
  exact decode_of_decodeCommand_eq_ok (hmap.trans (decodeH_append 0x4#4 h .setclo))

/-- A word of code 5 with zeros in 27:16 is SETCHI of its half (R103, R135). -/
theorem decode_setchi_word (h : BitVec 16) : decode (0x5#4 ++ (0#12 ++ h)) = .setchi h := by
  have hmap := decodeCommand_of_opField_eq_five (opField_append 0x5#4 (0#12 ++ h))
  exact decode_of_decodeCommand_eq_ok (hmap.trans (decodeH_append 0x5#4 h .setchi))

/-- A word that the opcode map sends to format H is illegal when a bit of 27:16 is set (R109). -/
theorem decode_eq_illegal_of_formatH {w : Word} {make : BitVec 16 → Instr}
    (hmap : decodeCommand w = decodeH w make) (hres : w.extractLsb' 16 12 ≠ 0#12) :
    decode w = .illegal w :=
  decode_of_decodeCommand_eq_error (hmap.trans (decodeH_of_reserved_ne_zero make hres))

end Sys2Proof

/-! What configuration and stream control leave (R130 to R137). -/

namespace Sys2Proof.Machine

/-- NOP completes and leaves the state (R130). -/
theorem exec_nop (s : State) : exec .nop s = .next s := rfl

/-- CFG completes and writes the three settings (R131). -/
theorem exec_cfg (f o : BitVec 4) (p : BitVec 1) (s : State) :
    exec (.cfg f o p) s = .next (s.setConfig f o p) := rfl

/-- DIM completes and writes both dimensions (R132). -/
theorem exec_dim (wm1 hm1 : BitVec 14) (s : State) :
    exec (.dim wm1 hm1) s = .next (s.setDims (dimension wm1) (dimension hm1)) := rfl

/-- SETCLO completes and writes `COLOR` (R134). -/
theorem exec_setclo (h : BitVec 16) (s : State) :
    exec (.setclo h) s = .next (s.setColor (withLowHalf s.color h)) := rfl

/-- SETCHI completes and writes `COLOR` (R135). -/
theorem exec_setchi (h : BitVec 16) (s : State) :
    exec (.setchi h) s = .next (s.setColor (withHighHalf s.color h)) := rfl

/-- RSTIN completes and rewinds the input (R136). -/
theorem exec_rstin (s : State) : exec .rstin s = .next (rewindInput s) := rfl

/-- RSTOUT completes and empties the output (R137). -/
theorem exec_rstout (s : State) : exec .rstout s = .next (emptyOutput s) := rfl

/-- `SW` follows a new `PAD` at once (R25, R131). -/
@[simp] theorem sw_setConfig (s : State) (f o : BitVec 4) (p : BitVec 1) :
    (s.setConfig f o p).sw = strideOf p s.width.toNat := rfl

/-- `SH` follows a new `PAD` at once (R25, R131). -/
@[simp] theorem sh_setConfig (s : State) (f o : BitVec 4) (p : BitVec 1) :
    (s.setConfig f o p).sh = strideOf p s.height.toNat := rfl

/-- `SW` follows a new `WIDTH` at once (R25, R132). -/
@[simp] theorem sw_setDims (s : State) (w h : BitVec 15) :
    (s.setDims w h).sw = strideOf s.pad w.toNat := rfl

/-- `SH` follows a new `HEIGHT` at once (R25, R132). -/
@[simp] theorem sh_setDims (s : State) (w h : BitVec 15) :
    (s.setDims w h).sh = strideOf s.pad h.toNat := rfl

/-- The largest field gives 16384, which 15 bits hold, so no dimension wraps (R106). -/
@[simp] theorem dimension_toNat (m : BitVec 14) : (dimension m).toNat = m.toNat + 1 := by
  have hm : m.toNat < 2 ^ 14 := m.isLt
  simp only [dimension, BitVec.toNat_add, BitVec.toNat_setWidth, BitVec.toNat_ofNat]
  omega

/-- Clearing bit 1 of a register, `EOS` in STATUS, is a mask (R29). -/
theorem withBit_one_false (v : BitVec 8) : withBit v 1 false = v &&& 0xFD#8 := by
  simp [withBit]

/-- The rewound input, field by field (R136). -/
theorem rewindInput_eq (s : State) :
    rewindInput s =
      { s with inPtr := 0#32, inNib := 0#8, bqCnt := 0#5, status := s.status &&& 0xFD#8 } := by
  rw [← withBit_one_false]
  rfl

/-- The emptied output, field by field (R137). -/
theorem emptyOutput_eq (s : State) :
    emptyOutput s = { s with texout := [], outLen := 0#32, outNib := 0#8, ebCnt := 0#4 } := rfl

end Sys2Proof.Machine

namespace Sys2Proof.Proofs

open Sys2Proof.Machine

/-- Settles O16: format Z leaves `OP` 0 one legal word, the all-zero one. -/
theorem nopChangesNothing : Obligations.NopChangesNothing := by
  unfold Obligations.NopChangesNothing
  refine ⟨by decide, by decide, exec_nop, ?_⟩
  intro w hop hw
  exact decode_eq_illegal_of_opField_eq_zero hop hw

/-- Settles O17: the word gives its fields back, and the strides are computed from `PAD` when they are read. -/
theorem cfgStoresItsFields : Obligations.CfgStoresItsFields := by
  unfold Obligations.CfgStoresItsFields
  refine ⟨?word, ?executes, by decide⟩
  case word =>
    intro f o p
    exact ⟨rfl, decode_cfg_word f o p⟩
  case executes =>
    intro f o p s
    exact ⟨_, exec_cfg f o p s, rfl, sw_setConfig s f o p, sh_setConfig s f o p⟩

/-- Settles O18: a field plus 1 fits its register, and the strides are computed from the dimensions when they are
read. -/
theorem dimSetsBothDimensions : Obligations.DimSetsBothDimensions := by
  unfold Obligations.DimSetsBothDimensions
  refine ⟨?word, ?executes, by decide⟩
  case word =>
    intro wm1 hm1
    exact ⟨rfl, decode_dim_word wm1 hm1⟩
  case executes =>
    intro wm1 hm1 s
    refine ⟨_, exec_dim wm1 hm1 s, rfl, ?_⟩
    simp only [State.setDims_width, State.setDims_height, sw_setDims, sh_setDims, dimension_toNat,
      and_self]

/-- Settles O20: both commands have format H, and each update joins the new half to the one it keeps. -/
theorem setcloAndSetchiReplaceHalves : Obligations.SetcloAndSetchiReplaceHalves := by
  unfold Obligations.SetcloAndSetchiReplaceHalves
  refine ⟨?words, ?illegal, ?executes⟩
  case words =>
    intro h
    exact ⟨decode_setclo_word h, decode_setchi_word h⟩
  case illegal =>
    rintro w (hop | hop) hres
    · exact decode_eq_illegal_of_formatH (decodeCommand_of_opField_eq_four hop) hres
    · exact decode_eq_illegal_of_formatH (decodeCommand_of_opField_eq_five hop) hres
  case executes =>
    intro h s
    exact ⟨exec_setclo h s, exec_setchi h s⟩

/-- Settles O21: the rewound input differs in the cursor, the bundle's count and `EOS` alone. -/
theorem rstinRewindsTheInput : Obligations.RstinRewindsTheInput := by
  unfold Obligations.RstinRewindsTheInput
  refine ⟨by decide, fun s => ?_⟩
  rw [exec_rstin, rewindInput_eq]

/-- Settles O22: the emptied output lists no byte of TEXOUT, so no address reads one. -/
theorem rstoutEmptiesTheOutput : Obligations.RstoutEmptiesTheOutput := by
  unfold Obligations.RstoutEmptiesTheOutput
  refine ⟨by decide, fun s => ⟨emptyOutput s, exec_rstout s, emptyOutput_eq s, ?_⟩⟩
  -- `emptyOutput` writes the empty memory.
  exact Memory.read?_nil

end Sys2Proof.Proofs

/-! Dispatch of DECPX (R172): the format that a code names, the spec's names for what R171 looks at, and the two
ways the command can go once the format is good. -/

namespace Sys2Proof.Machine

open Sys2Proof.Claims

/-- The statements' table of codes is the model's (R104). -/
theorem formatOf_eq_some {c : BitVec 4} {f : Format} : formatOf c = some f ↔ c = formatCode f := by
  cases f <;> revert c <;> decide

/-- Every code but 14 and 15 is the code of a format (R104). -/
theorem exists_formatCode {c : BitVec 4} (h : ¬ (c = 14#4 ∨ c = 15#4)) : ∃ f, c = formatCode f := by
  obtain ⟨f, hf⟩ := Option.ne_none_iff_exists'.mp (mt (formatOf_eq_none c).mp h)
  exact ⟨f, formatOf_eq_some.mp hf⟩

/-- A table over the codes that lists neither 14 nor 15 lists codes of formats only. -/
theorem exists_formatCode_of_listed {α : Type} (table : BitVec 4 → Option α) {c : BitVec 4} {a : α}
    (h : table c = some a) (h14 : table 14#4 = none) (h15 : table 15#4 = none) :
    ∃ f, c = formatCode f := by
  apply exists_formatCode
  rintro (rfl | rfl)
  · simp [h14] at h
  · simp [h15] at h

theorem available_eq_avail (s : State) : available s = avail s := by
  unfold available avail
  split <;> omega

theorem inPending_eq_pendingNibbles (s : State) : inPending s = pendingNibbles s := by
  have hbit : ∀ v : BitVec 8, (v.extractLsb' 0 1).toNat = if nibPending v then 1 else 0 := by decide
  exact hbit s.inNib

/-- `hasInput` is the complement of R171's list of short inputs. -/
theorem hasInput_iff {s : State} {f : Format} (hf : s.fmt = formatCode f) :
    hasInput f s = true ↔ ¬ lacksPixel s := by
  have hcnt : s.bqCnt = 0#5 ↔ s.bqCnt.toNat = 0 := BitVec.toNat_inj.symm
  rw [lacksPixel, hf, available_eq_avail, inPending_eq_pendingNibbles, hcnt]
  cases f <;> simp [hasInput, formatCode, Nat.pos_iff_ne_zero, or_iff_not_imp_left] <;> omega

theorem exec_decpx (s : State) {f : Format} (hf : s.fmt = formatCode f) :
    exec .decpx s =
      if hasInput f s then .next ((decodePixel f s).2.setColor (decodePixel f s).1)
      else .next (s.withEos true) :=
  withFormat_some (formatOf_eq_some.mpr hf) _

/-- With a whole pixel in the input DECPX decodes it (R172). -/
theorem exec_decpx_of_hasInput {s : State} {f : Format} (hf : s.fmt = formatCode f)
    (hin : hasInput f s = true) :
    exec .decpx s = .next ((decodePixel f s).2.setColor (decodePixel f s).1) := by
  rw [exec_decpx s hf, if_pos hin]

/-- At the end of the input DECPX sets `EOS` alone (R172). -/
theorem exec_decpx_of_not_hasInput {s : State} {f : Format} (hf : s.fmt = formatCode f)
    (hin : ¬ hasInput f s = true) : exec .decpx s = .next (s.withEos true) := by
  rw [exec_decpx s hf, if_neg hin]

/-- Setting bit 1 of a register, `EOS` in STATUS (R29). -/
theorem withBit_one_true : ∀ v : BitVec 8, withBit v 1 true = v ||| 0x02#8 := by decide

theorem withEos_true_eq (s : State) : s.withEos true = { s with status := s.status ||| 0x02#8 } := by
  rw [← withBit_one_true]
  rfl

theorem exec_decpx_of_badFormat {s : State} (h : badFormat s) :
    exec .decpx s = .next (failed s 1#8) :=
  withFormat_none ((formatOf_eq_none _).mpr h) _

/-- An input that lacks a pixel is short of a pixel of a format. -/
theorem exists_format_of_lacksPixel {s : State} (h : lacksPixel s) : ∃ f, s.fmt = formatCode f := by
  apply exists_formatCode
  rintro (hbad | hbad) <;> simp [lacksPixel, hbad] at h

end Sys2Proof.Machine

namespace Sys2Proof.Proofs

open Sys2Proof.Machine Sys2Proof.Claims

/-- Settles O27: the format check, then R171's list, then the frame of `decodePixel`. -/
theorem decpxChecksThenDecodes : Obligations.DecpxChecksThenDecodes := by
  unfold Obligations.DecpxChecksThenDecodes
  refine ⟨by decide, fun s => ⟨exec_decpx_of_badFormat, ?short, ?whole⟩⟩
  case short =>
    intro hlacks
    obtain ⟨f, hf⟩ := exists_format_of_lacksPixel hlacks
    have hin : ¬ hasInput f s = true := fun h => (hasInput_iff hf).mp h hlacks
    rw [exec_decpx_of_not_hasInput hf hin, withEos_true_eq]
  case whole =>
    intro f hf hlacks
    refine ⟨_, exec_decpx_of_hasInput hf ((hasInput_iff hf).mpr hlacks), rfl, ?_⟩
    obtain ⟨p, n, q, c, hframe⟩ := decodePixel_frame f s
    rw [hframe]
    rfl

end Sys2Proof.Proofs

/-! Reading the input byte by byte (R70, R71): the state after some bytes, and the pixels of the formats made of
whole bytes and of packed words. -/

namespace Sys2Proof.Machine

open Sys2Proof.Claims

/-- The state after `k` bytes of the stream have been read: a pending nibble is dropped by the first (R70). -/
def byteCursor (s : State) : Nat → State
  | 0 => s
  | k + 1 => s.setInput (s.inPtr + BitVec.ofNat 32 (k + 1)) 0#8

@[simp] theorem byteCursor_zero (s : State) : byteCursor s 0 = s := rfl

theorem byteCursor_of_pos (s : State) {k : Nat} (hk : 0 < k) :
    byteCursor s k = s.setInput (s.inPtr + BitVec.ofNat 32 k) 0#8 := by
  obtain ⟨j, rfl⟩ := Nat.exists_eq_succ_of_ne_zero hk.ne'
  rfl

/-- A cursor inside the input does not wrap (R31). -/
theorem inPtr_add_toNat {s : State} {k : Nat} (hk : k < available s) :
    (s.inPtr + BitVec.ofNat 32 k).toNat = s.inPtr.toNat + k := by
  have hlen : s.inLen.toNat < 2 ^ 32 := s.inLen.isLt
  have hptr : s.inPtr.toNat + k < 2 ^ 32 := by
    rw [available_eq_avail, avail] at hk
    omega
  simp only [BitVec.toNat_add, BitVec.toNat_ofNat]
  omega

/-- A byte of the input is read at the cursor, which moves on by one (R70). -/
theorem rdByte_byteCursor {s : State} {k : Nat} (hk : k < available s) :
    rdByte (byteCursor s k) = (byteAt s k, byteCursor s (k + 1)) := by
  cases k with
  | zero => rfl
  | succ k =>
    have hptr := inPtr_add_toNat hk
    have hnext : s.inPtr + BitVec.ofNat 32 (k + 1) + 1#32 = s.inPtr + BitVec.ofNat 32 (k + 2) := by
      rw [BitVec.add_assoc, ← BitVec.ofNat_add]
    simp only [rdByte, byteCursor, State.setInput_inPtr, hptr, hnext]
    rfl

/-- The first byte of a pixel (R70). -/
theorem rdByte_eq (s : State) : rdByte s = (byteAt s 0, byteCursor s 1) := rfl

/-- A 16-bit word of the input is its second byte above its first (R71). -/
theorem rdWord16_eq {s : State} (h : 2 ≤ available s) :
    rdWord16 s = (byteAt s 1 ++ byteAt s 0, s.setInput (s.inPtr + 2#32) 0#8) := by
  have hsecond : rdByte (byteCursor s 1) = (byteAt s 1, byteCursor s 2) := rdByte_byteCursor h
  simp only [rdWord16, rdByte_eq s, hsecond]
  rfl

/-- Each format made of whole bytes decodes to its color and leaves the cursor after its bytes (R180, R181, R185
to R188). -/
theorem decodePixel_wholeByte {s : State} {f : Format} {n : Nat} {c : Color}
    (hc : wholeByteColor (formatCode f) (byteAt s) = some (n, c)) (hn : n ≤ available s) :
    hasInput f s = true ∧
      decodePixel f s = (c, s.setInput (s.inPtr + BitVec.ofNat 32 n) 0#8) := by
  suffices h : 0 < n ∧ hasInput f s = true ∧ decodePixel f s = (c, byteCursor s n) by
    obtain ⟨hpos, hin, hpixel⟩ := h
    exact ⟨hin, by rw [hpixel, byteCursor_of_pos s hpos]⟩
  have read {k : Nat} (hk : k < n) : rdByte (byteCursor s k) = (byteAt s k, byteCursor s (k + 1)) :=
    rdByte_byteCursor (by omega)
  rw [available_eq_avail] at hn
  cases f
  case rgba8888 | rgb888 | la88 | hl88 | l8 | a8 =>
    obtain ⟨rfl, rfl⟩ : _ = n ∧ _ = c := by simpa [wholeByteColor, formatCode] using hc
    simp [hasInput, hn, decodePixel, argb, rdByte_eq s, read]
  -- No other format is made of whole bytes.
  all_goals simp [wholeByteColor, formatCode] at hc

/-- A word put together from two parts, as a number. -/
theorem toNat_append {n m : Nat} (hi : BitVec n) (lo : BitVec m) :
    (hi ++ lo).toNat = hi.toNat * 2 ^ m + lo.toNat := by
  rw [BitVec.toNat_append, ← Nat.shiftLeft_add_eq_or_of_lt lo.isLt, Nat.shiftLeft_eq]

/-- The word of two bytes as a number (R71). -/
theorem toNat_bytes (hi lo : Byte) : (hi ++ lo : BitVec 16).toNat = lo.toNat + 256 * hi.toNat := by
  rw [toNat_append]
  omega

/-- A field of a word is a quotient of the word's value, reduced to the field's width. -/
theorem toNat_field (w : BitVec 16) (k n : Nat) :
    (w.extractLsb' k n).toNat = w.toNat / 2 ^ k % 2 ^ n := by
  rw [BitVec.extractLsb'_toNat, Nat.shiftRight_eq_div_pow]

/-- The packed formats decode to their color and leave the cursor after two bytes (R182, R183). -/
theorem decodePixel_packed {s : State} {f : Format} {c : Color}
    (hc : packedColor (formatCode f) (byteAt s) = some c) (hn : 2 ≤ available s) :
    hasInput f s = true ∧ decodePixel f s = (c, s.setInput (s.inPtr + 2#32) 0#8) := by
  have hword := rdWord16_eq hn
  rw [available_eq_avail] at hn
  cases f
  case rgba5551 | rgb565 =>
    obtain rfl : _ = c := by simpa [packedColor, formatCode] using hc
    simp only [hasInput, hn, decodePixel, hword, unpack5551, unpack565, argb, expand1, expand5,
      expand6, toNat_field, toNat_bytes, channel, Nat.reducePow, Nat.div_one, decide_true, and_self]
  -- No other format is a packed word.
  all_goals simp [packedColor, formatCode] at hc

end Sys2Proof.Machine

namespace Sys2Proof.Proofs

open Sys2Proof.Machine Sys2Proof.Claims

/-- Settles O28: the bytes of the pixel are read one after another from the cursor on. -/
theorem wholeByteFormatsDecode : Obligations.WholeByteFormatsDecode := by
  unfold Obligations.WholeByteFormatsDecode
  intro s n c hc hn
  obtain ⟨f, hf⟩ := exists_formatCode_of_listed (wholeByteColor · _) hc rfl rfl
  rw [hf] at hc
  obtain ⟨hin, hpixel⟩ := decodePixel_wholeByte hc hn
  rw [exec_decpx_of_hasInput hf hin, hpixel]
  rfl

/-- Settles O29: the fields of the word that the two bytes make are its quotients. -/
theorem packedFormatsDecode : Obligations.PackedFormatsDecode := by
  unfold Obligations.PackedFormatsDecode
  intro s c hc hn
  obtain ⟨f, hf⟩ := exists_formatCode_of_listed (packedColor · _) hc rfl rfl
  rw [hf] at hc
  obtain ⟨hin, hpixel⟩ := decodePixel_packed hc hn
  rw [exec_decpx_of_hasInput hf hin, hpixel]
  rfl

end Sys2Proof.Proofs

/-! Reading the input nibble by nibble (R72): the state after some nibbles, and the pixels of the nibble formats. -/

namespace Sys2Proof.Machine

open Sys2Proof.Claims

theorem freshNibble_lt (s : State) (j : Nat) : freshNibble s j < 16 := by
  have hb : (byteAt s (j / 2)).toNat < 256 := (byteAt s (j / 2)).isLt
  unfold freshNibble
  dsimp only
  split <;> split <;> omega

theorem inPending_le_one (s : State) : inPending s ≤ 1 := by
  rw [inPending_eq_pendingNibbles, pendingNibbles]
  split <;> decide

theorem streamNibble_lt (s : State) (k : Nat) : streamNibble s k < 16 := by
  have hnib : s.inNib.toNat < 256 := s.inNib.isLt
  unfold streamNibble
  split
  · split
    · omega
    · exact freshNibble_lt s _
  · exact freshNibble_lt s _

/-- Both nibbles of a byte of the input, in the order of `NIBBLE_ORDER` (R65). -/
theorem splitByte_byteAt (s : State) (m : Nat) :
    splitByte s.nibbleOrder (byteAt s m) =
      (BitVec.ofNat 4 (freshNibble s (2 * m)), BitVec.ofNat 4 (freshNibble s (2 * m + 1))) := by
  have hsplit : ∀ b : Byte, b.extractLsb' 4 4 = BitVec.ofNat 4 (b.toNat / 16) ∧
      b.extractLsb' 0 4 = BitVec.ofNat 4 (b.toNat % 16) := by decide
  obtain ⟨hhigh, hlow⟩ := hsplit (byteAt s m)
  have heven : 2 * m / 2 = m := by omega
  have hodd : (2 * m + 1) / 2 = m := by omega
  unfold freshNibble
  cases s.nibbleOrder <;> simp [splitByte, heven, hodd, hhigh, hlow]

/-- A nibble register holding `n`, as the number the statements write. -/
theorem nibHolding_ofNat {n : Nat} (hn : n < 16) :
    nibHolding (BitVec.ofNat 4 n) = BitVec.ofNat 8 (16 * n + 1) := by
  have hall : ∀ v : Nibble, nibHolding v = BitVec.ofNat 8 (16 * v.toNat + 1) := by decide
  rw [hall, BitVec.toNat_ofNat, Nat.mod_eq_of_lt hn]

theorem nibValue_eq_ofNat : ∀ v : BitVec 8, nibValue v = BitVec.ofNat 4 (v.toNat / 16) := by decide

/-- The channel of a 4-bit field (R235). -/
theorem expand4_ofNat {n : Nat} (hn : n < 16) : expand4 (BitVec.ofNat 4 n) = channel (n * 17) := by
  rw [expand4, BitVec.toNat_ofNat, Nat.mod_eq_of_lt hn, channel]

/-- A pending nibble is read, and is no longer pending (R72). -/
theorem rdNib_of_pending {s : State} (h : nibPending s.inNib = true) :
    rdNib s = (nibValue s.inNib, s.setInput s.inPtr 0#8) := by
  rw [rdNib_eq, if_pos h]

/-- With nothing pending and `m` bytes read, the next byte gives its first nibble, and its second stays pending
(R72). -/
theorem rdNib_of_fresh {s t : State} {m : Nat} (hm : m < available s)
    (hnib : nibPending t.inNib = false) (hptr : t.inPtr = s.inPtr + BitVec.ofNat 32 m)
    (htexin : t.texin = s.texin) (horder : t.nibbleOrder = s.nibbleOrder) :
    rdNib t = (BitVec.ofNat 4 (freshNibble s (2 * m)),
      t.setInput (s.inPtr + BitVec.ofNat 32 (m + 1))
        (nibHolding (BitVec.ofNat 4 (freshNibble s (2 * m + 1))))) := by
  have hbyte : texRead t t.inPtr.toNat = byteAt s m := by
    rw [texRead_congr htexin, hptr, inPtr_add_toNat hm]
    rfl
  have hnext : t.inPtr + 1#32 = s.inPtr + BitVec.ofNat 32 (m + 1) := by
    rw [hptr, BitVec.add_assoc, ← BitVec.ofNat_add]
  rw [rdNib_eq, if_neg (by simp [hnib]), hbyte, horder, splitByte_byteAt, hnext]

/-- The state after `k` nibbles of the stream have been read (R72). -/
def nibCursor (s : State) : Nat → State
  | 0 => s
  | k + 1 => s.setInput (afterNibbles s (k + 1)).1 (afterNibbles s (k + 1)).2

@[simp] theorem nibCursor_zero (s : State) : nibCursor s 0 = s := rfl

theorem nibCursor_of_pos (s : State) {k : Nat} (hk : 0 < k) :
    nibCursor s k = s.setInput (afterNibbles s k).1 (afterNibbles s k).2 := by
  obtain ⟨j, rfl⟩ := Nat.exists_eq_succ_of_ne_zero hk.ne'
  rfl

/-- An odd number of new nibbles leaves the second half of the last byte pending (R72). -/
theorem afterNibbles_of_odd {s : State} {k m : Nat} (h : k - inPending s = 2 * m + 1) :
    afterNibbles s k = (s.inPtr + BitVec.ofNat 32 (m + 1),
      nibHolding (BitVec.ofNat 4 (freshNibble s (2 * m + 1)))) := by
  have hhalf : (2 * m + 1 + 1) / 2 = m + 1 := by omega
  have hodd : (2 * m + 1) % 2 = 1 := by omega
  simp only [afterNibbles, h, hhalf, hodd, if_true, nibHolding_ofNat (freshNibble_lt s _)]

/-- An even number of new nibbles leaves nothing pending (R72). -/
theorem afterNibbles_of_even {s : State} {k m : Nat} (h : k - inPending s = 2 * m) :
    afterNibbles s k = (s.inPtr + BitVec.ofNat 32 m, 0#8) := by
  have hhalf : (2 * m + 1) / 2 = m := by omega
  have heven : ¬ 2 * m % 2 = 1 := by omega
  simp only [afterNibbles, h, hhalf, heven, if_false]

/-- The nibble after the pending one, if any, is a fresh one. -/
theorem streamNibble_of_fresh {s : State} {k j : Nat} (h : k = inPending s + j) :
    streamNibble s k = freshNibble s j := by
  have hle := inPending_le_one s
  unfold streamNibble
  split
  · rw [if_neg (by omega)]
    congr 1
    omega
  · congr 1
    omega

theorem inPending_eq_one {s : State} : inPending s = 1 ↔ nibPending s.inNib = true := by
  rw [inPending_eq_pendingNibbles, pendingNibbles]
  split <;> simp_all

/-- Where a new byte is due, the cursor stands at it and nothing is pending. -/
theorem nibCursor_atByte {s : State} {k m : Nat} (h : k = inPending s + 2 * m) :
    nibPending (nibCursor s k).inNib = false ∧
      (nibCursor s k).inPtr = s.inPtr + BitVec.ofNat 32 m := by
  rcases Nat.eq_zero_or_pos k with rfl | hpos
  · have hnone : ¬ inPending s = 1 := by omega
    obtain rfl : m = 0 := by omega
    exact ⟨by simpa [inPending_eq_one] using hnone, (BitVec.add_zero _).symm⟩
  · rw [nibCursor_of_pos s hpos, afterNibbles_of_even (m := m) (by omega)]
    exact ⟨nibPending_zero, rfl⟩

/-- A nibble of the stream is read at the cursor, which moves on by one nibble (R72): it is the one pending at
first, the first half of a new byte, or its second half. -/
theorem rdNib_nibCursor {s : State} {k : Nat} (hk : k < inPending s + 2 * available s) :
    rdNib (nibCursor s k) = (BitVec.ofNat 4 (streamNibble s k), nibCursor s (k + 1)) := by
  have hle := inPending_le_one s
  have hcases : (k = 0 ∧ inPending s = 1) ∨ (∃ m, k = inPending s + 2 * m) ∨
      ∃ m, k = inPending s + 2 * m + 1 := by
    rcases Nat.even_or_odd' (k - inPending s) with ⟨m, hm | hm⟩
    · by_cases hfirst : k = 0 ∧ inPending s = 1
      · exact .inl hfirst
      · exact .inr (.inl ⟨m, by omega⟩)
    · exact .inr (.inr ⟨m, by omega⟩)
  rw [nibCursor_of_pos s k.succ_pos]
  rcases hcases with ⟨rfl, hpend⟩ | ⟨m, hm⟩ | ⟨m, hm⟩
  · have hstream : streamNibble s 0 = s.inNib.toNat / 16 := by simp [streamNibble, hpend]
    rw [nibCursor_zero, rdNib_of_pending (inPending_eq_one.mp hpend), nibValue_eq_ofNat, hstream,
      afterNibbles_of_even (m := 0) (by omega), BitVec.add_zero]
  · obtain ⟨hnone, hptr⟩ := nibCursor_atByte hm
    have hframe : (nibCursor s k).texin = s.texin ∧
        (nibCursor s k).nibbleOrder = s.nibbleOrder ∧
        ∀ p n, (nibCursor s k).setInput p n = s.setInput p n := by
      cases k <;> exact ⟨rfl, rfl, fun _ _ => rfl⟩
    obtain ⟨htexin, horder, hset⟩ := hframe
    rw [rdNib_of_fresh (by omega) hnone hptr htexin horder, streamNibble_of_fresh hm,
      afterNibbles_of_odd (m := m) (by omega), hset]
  · have hheld : nibCursor s k = s.setInput (s.inPtr + BitVec.ofNat 32 (m + 1))
        (nibHolding (BitVec.ofNat 4 (freshNibble s (2 * m + 1)))) := by
      rw [nibCursor_of_pos s (by omega), afterNibbles_of_odd (m := m) (by omega)]
    rw [hheld, rdNib_of_pending (nibPending_holding _), State.setInput_inNib, nibValue_holding,
      streamNibble_of_fresh (j := 2 * m + 1) (by omega),
      afterNibbles_of_even (m := m + 1) (by omega)]
    rfl

/-- Each nibble format decodes to its color and leaves the cursor after its nibbles (R184, R189 to R191). -/
theorem decodePixel_nibbles {s : State} {f : Format} {n : Nat} {c : Color}
    (hc : nibbleColor (formatCode f) (streamNibble s) = some (n, c))
    (hn : n ≤ inPending s + 2 * available s) :
    hasInput f s = true ∧
      decodePixel f s = (c, s.setInput (afterNibbles s n).1 (afterNibbles s n).2) := by
  suffices h : 0 < n ∧ hasInput f s = true ∧ decodePixel f s = (c, nibCursor s n) by
    obtain ⟨hpos, hin, hpixel⟩ := h
    exact ⟨hin, by rw [hpixel, nibCursor_of_pos s hpos]⟩
  have read {k : Nat} (hk : k < n) :
      rdNib (nibCursor s k) = (BitVec.ofNat 4 (streamNibble s k), nibCursor s (k + 1)) :=
    rdNib_nibCursor (by omega)
  rw [inPending_eq_pendingNibbles, available_eq_avail] at hn
  cases f
  case rgba4444 | la44 | l4 | a4 =>
    obtain ⟨rfl, rfl⟩ : _ = n ∧ _ = c := by simpa [nibbleColor, formatCode] using hc
    have first := read (k := 0) (by omega)
    rw [nibCursor_zero] at first
    simp [hasInput, hn, decodePixel, argb, first, read, expand4_ofNat (streamNibble_lt s _)]
  -- No other format is made of nibbles.
  all_goals simp [nibbleColor, formatCode] at hc

end Sys2Proof.Machine

namespace Sys2Proof.Proofs

open Sys2Proof.Machine Sys2Proof.Claims

/-- Settles O30: the nibbles of the pixel are read one after another, a pending one first. -/
theorem nibbleFormatsDecode : Obligations.NibbleFormatsDecode := by
  unfold Obligations.NibbleFormatsDecode
  intro s n c hc hn
  obtain ⟨f, hf⟩ := exists_formatCode_of_listed (nibbleColor · _) hc rfl rfl
  rw [hf] at hc
  obtain ⟨hin, hpixel⟩ := decodePixel_nibbles hc hn
  rw [exec_decpx_of_hasInput hf hin, hpixel]
  rfl

end Sys2Proof.Proofs

/-! The decode bundle (R173, R174): the pixels of ETC1 and ETC1A4. -/

namespace Sys2Proof.Machine

open Sys2Proof.Claims

/-- A color with its alpha forced to 255 keeps its low 24 bits (R192). -/
theorem argb_opaque (c : Color) :
    argb 255#8 (chanR c) (chanG c) (chanB c) = 255#8 ++ c.extractLsb' 0 24 := by
  have hlow : c.extractLsb' 0 24 = chanR c ++ chanG c ++ chanB c := by
    simp only [chanR, chanG, chanB]
    rw [BitVec.extractLsb'_append_extractLsb'_eq_extractLsb' (by rfl),
      BitVec.extractLsb'_append_extractLsb'_eq_extractLsb' (by rfl)]
  rw [hlow, argb]
  apply BitVec.eq_of_toNat_eq
  simp only [BitVec.toNat_append, Nat.shiftLeft_or_distrib, ← Nat.shiftLeft_add, Nat.or_assoc]

/-- A color is its four channels (R12). -/
theorem argb_chan (c : Color) : argb (chanA c) (chanR c) (chanG c) (chanB c) = c := by
  simp only [argb, chanA, chanR, chanG, chanB]
  rw [BitVec.extractLsb'_append_extractLsb'_eq_extractLsb' (by rfl),
    BitVec.extractLsb'_append_extractLsb'_eq_extractLsb' (by rfl),
    BitVec.extractLsb'_append_extractLsb'_eq_extractLsb' (by rfl)]
  exact BitVec.extractLsb'_eq_self

/-- With 1 to 16 colors left, the next one is the entry R35 names. -/
theorem nextOfBundle_eq {s : State} (h : 0 < s.bqCnt.toNat ∧ s.bqCnt.toNat ≤ 16) :
    nextOfBundle s = s.bq[16 - s.bqCnt.toNat]'(by omega) := by
  obtain ⟨hpos, hle⟩ := h
  have hlt : 16 - s.bqCnt.toNat < s.bq.toList.length := by rw [Vector.length_toList]; omega
  rw [nextOfBundle, if_pos hle, ← List.getElem_eq_getD (h := hlt), Vector.getElem_toList]

/-- The first color of a refilled bundle (R173). -/
theorem nextOfBundle_refill (hasAlpha : Bool) (s : State) :
    nextOfBundle (refillBundle hasAlpha s) =
      (Config.blockDecode hasAlpha (blockBytes hasAlpha s))[0] :=
  nextOfBundle_eq ⟨by simp [refillBundle], by simp [refillBundle]⟩

/-- The state after a refill, and after its first color is handed out (R173). -/
theorem etcNext_refill {s : State} (h : s.bqCnt = 0#5) (hasAlpha : Bool) {bytes : BitVec 32}
    (hbytes : BitVec.ofNat 32 (Config.etcBytes hasAlpha) = bytes) :
    etcNext hasAlpha s =
      ((Config.blockDecode hasAlpha (Vector.ofFn fun k => byteAt s k.val))[0],
        { s with
          inPtr := s.inPtr + bytes, inNib := 0#8,
          bq := Config.blockDecode hasAlpha (Vector.ofFn fun k => byteAt s k.val),
          bqCnt := 15#5 }) := by
  rw [etcNext_empty h, nextOfBundle_refill, ← hbytes]
  rfl

/-- A pixel of ETC1 is the next color of the bundle, its alpha forced to 255 (R192). -/
theorem decodePixel_etc1 (s : State) :
    decodePixel .etc1 s = (255#8 ++ (etcNext false s).1.extractLsb' 0 24, (etcNext false s).2) := by
  simp only [decodePixel, argb_opaque]

/-- A pixel of ETC1A4 is the next color of the bundle (R193). -/
theorem decodePixel_etc1a4 (s : State) : decodePixel .etc1a4 s = etcNext true s := by
  simp only [decodePixel, argb_chan]

/-- An ETC format has a pixel while its bundle holds a color, or with a whole block in the input (R171). -/
theorem hasInput_etc {s : State} (hasAlpha : Bool)
    (h : 0 < s.bqCnt.toNat ∨ Config.etcBytes hasAlpha ≤ available s) :
    hasInput (if hasAlpha then .etc1a4 else .etc1) s = true := by
  rw [available_eq_avail] at h
  cases hasAlpha <;> exact decide_eq_true h

end Sys2Proof.Machine

namespace Sys2Proof.Proofs

open Sys2Proof.Machine Sys2Proof.Claims

/-- Settles O31: a pending bundle gives the entry that its count names; an empty one is filled by a block first. -/
theorem etcFormatsDecode : Obligations.EtcFormatsDecode := by
  unfold Obligations.EtcFormatsDecode
  intro opaqued s
  refine ⟨?pending, ?refillEtc1, ?refillEtc1a4⟩
  case pending =>
    intro h
    have hne : s.bqCnt ≠ 0#5 := fun h0 => by simp [h0] at h
    refine ⟨fun hfmt => ?_, fun hfmt => ?_⟩
    · rw [exec_decpx_of_hasInput (f := .etc1) hfmt (hasInput_etc false (.inl h.1)), decodePixel_etc1,
        etcNext_pending hne, nextOfBundle_eq h]
      rfl
    · rw [exec_decpx_of_hasInput (f := .etc1a4) hfmt (hasInput_etc true (.inl h.1)),
        decodePixel_etc1a4, etcNext_pending hne, nextOfBundle_eq h]
      rfl
  case refillEtc1 =>
    intro hempty hfmt hblock
    rw [exec_decpx_of_hasInput (f := .etc1) hfmt (hasInput_etc false (.inr hblock)),
      decodePixel_etc1, etcNext_refill hempty _ rfl]
    rfl
  case refillEtc1a4 =>
    intro hempty hfmt hblock
    rw [exec_decpx_of_hasInput (f := .etc1a4) hfmt (hasInput_etc true (.inr hblock)),
      decodePixel_etc1a4, etcNext_refill hempty _ rfl]
    rfl

end Sys2Proof.Proofs

/-! What a stream write appends to TEXOUT (R73 to R76): the statements' relation `appends` holds of an append, and
joins along a sequence of writes. -/

namespace Sys2Proof.Machine

open Sys2Proof.Claims

/-! ### The relation -/

/-- What an append leaves of the fields that the stream writes look at. -/
theorem appends_fields {s t : State} {out : List Byte} {nib : BitVec 8} (h : appends s t out nib) :
    t.outLen = s.outLen + BitVec.ofNat 32 out.length ∧ t.outNib = nib ∧
      t.nibbleOrder = s.nibbleOrder := by
  obtain ⟨ht, -, -⟩ := h
  rw [ht]
  exact ⟨rfl, rfl, rfl⟩

/-- Appending nothing. -/
theorem appends_nil (s : State) : appends s s [] s.outNib :=
  ⟨by simp, by simp, fun _ _ => rfl⟩

theorem appends_setOutNib {s t : State} {out : List Byte} {nib : BitVec 8} (h : appends s t out nib)
    (v : BitVec 8) : appends s (t.setOutNib v) out v := by
  obtain ⟨ht, hnew, hold⟩ := h
  refine ⟨?_, hnew, hold⟩
  rw [ht]
  rfl

/-- `OUT_NIB` before an append is not part of what it leaves. -/
theorem appends_of_setOutNib {s t : State} {v nib : BitVec 8} {out : List Byte}
    (h : appends (s.setOutNib v) t out nib) : appends s t out nib := h

/-- `OUT_LEN` after an append that fits does not wrap. -/
theorem appends_outLen {s t : State} {out : List Byte} {nib : BitVec 8} (h : appends s t out nib)
    (hroom : roomFor s out.length) : t.outLen.toNat = s.outLen.toNat + out.length := by
  obtain ⟨hlen, -, -⟩ := appends_fields h
  rw [hlen, BitVec.toNat_add, BitVec.toNat_ofNat]
  omega

/-- One append after another appends both lists in order. -/
theorem appends_trans {s t u : State} {out out' : List Byte} {nib nib' : BitVec 8}
    (h : appends s t out nib) (h' : appends t u out' nib')
    (hroom : roomFor s (out.length + out'.length)) : appends s u (out ++ out') nib' := by
  have hlen := appends_outLen h (by omega)
  obtain ⟨ht, hnew, hold⟩ := h
  obtain ⟨hu, hnew', hold'⟩ := h'
  rw [hlen] at hnew' hold'
  refine ⟨?state, ?new, ?old⟩
  case state =>
    rw [hu, ht]
    simp only [List.length_append, BitVec.ofNat_add, BitVec.add_assoc]
  case new =>
    intro k hk
    rw [List.length_append] at hk
    by_cases hfirst : k < out.length
    · rw [hold' _ (.inl (by omega)), hnew k hfirst, List.getElem_append_left hfirst]
    · have hsecond := hnew' (k - out.length) (by omega)
      rw [List.getElem_append_right (by omega), ← hsecond]
      congr 1
      omega
  case old =>
    intro a ha
    rw [List.length_append] at ha
    rw [hold' a (by omega), hold a (by omega)]

/-- A write that leaves `out`, followed by one that leaves `out'` from wherever the first ends, leaves both in
order. -/
theorem andThen_appends {r : Result} {k : State → Result} {s : State} {out out' : List Byte}
    {nib nib' : BitVec 8} (hroom : roomFor s (out.length + out'.length))
    (hr : ∃ u, r = .next u ∧ appends s u out nib)
    (hk : ∀ u, u.outNib = nib → u.nibbleOrder = s.nibbleOrder → roomFor u out'.length →
      ∃ t, k u = .next t ∧ appends u t out' nib') :
    ∃ t, andThen r k = .next t ∧ appends s t (out ++ out') nib' := by
  obtain ⟨u, rfl, hu⟩ := hr
  have hlen := appends_outLen hu (by omega)
  obtain ⟨-, hnib, horder⟩ := appends_fields hu
  obtain ⟨t, hstep, ht⟩ := hk u hnib horder (by omega)
  exact ⟨t, hstep, appends_trans hu ht hroom⟩

/-- An append after which nothing is pending. -/
theorem andThen_setOutNib_appends {r : Result} {s : State} {out : List Byte} {nib : BitVec 8}
    (hr : ∃ u, r = .next u ∧ appends s u out nib) (v : BitVec 8) :
    ∃ t, andThen r (fun u => .next (u.setOutNib v)) = .next t ∧ appends s t out v := by
  obtain ⟨u, rfl, hu⟩ := hr
  exact ⟨_, rfl, appends_setOutNib hu v⟩

/-! ### The writes -/

/-- An append with room (R76). -/
theorem texAppend_appends {s : State} (hroom : roomFor s 1) (b : Byte) :
    ∃ t, texAppend b s = .next t ∧ appends s t [b] s.outNib := by
  have hne : s.outLen ≠ 0xFFFFFFFF#32 := by
    intro h
    rw [roomFor, h] at hroom
    exact absurd hroom (by decide)
  refine ⟨_, texAppend_room hne b, rfl, ?new, ?old⟩
  case new =>
    intro k hk
    obtain rfl : k = 0 := by simpa using hk
    exact Memory.read?_write_same _ _ _
  case old =>
    intro a ha
    exact Memory.read?_write_other _ (by simp only [List.length_singleton] at ha; omega) _

/-- The spec's tests of `NPEND` are the model's (R34). -/
theorem outNib_bit_eq_one : ∀ v : BitVec 8, v.extractLsb' 0 1 = 1#1 ↔ nibPending v = true := by decide

theorem outPending_of_pending {s : State} (h : nibPending s.outNib = true) :
    outPending s = [s.outNib.toNat / 16] := if_pos ((outNib_bit_eq_one _).mpr h)

theorem outPending_of_idle {s : State} (h : nibPending s.outNib = false) : outPending s = [] :=
  if_neg (by rw [outNib_bit_eq_one, h]; decide)

theorem flushed_of_idle {s : State} (h : nibPending s.outNib = false) : flushed s = [] := by
  rw [flushed, outPending_of_idle h, List.map_nil]

theorem nibAfterBytes_of_idle {s : State} (h : nibPending s.outNib = false) :
    nibAfterBytes s = s.outNib := if_neg (by rw [outNib_bit_eq_one, h]; decide)

theorem nibAfterBytes_of_pending {s : State} (h : nibPending s.outNib = true) :
    nibAfterBytes s = 0#8 := if_pos ((outNib_bit_eq_one _).mpr h)

/-- After a whole-byte write nothing is pending (R73). -/
theorem nibPending_nibAfterBytes (s : State) : nibPending (nibAfterBytes s) = false := by
  unfold nibAfterBytes
  split
  next => exact nibPending_zero
  next h => rwa [outNib_bit_eq_one, Bool.not_eq_true] at h

/-- The byte of two nibbles, as the number the statements write (R65). -/
theorem joinNibbles_eq_byteOf (order : Config.NibbleOrder) (a b : Nibble) :
    joinNibbles order a b = byteOf order a.toNat b.toNat := by
  have hjoin : ∀ a b : Nibble, a ++ b = (BitVec.ofNat 8 (16 * a.toNat + b.toNat) : Byte) := by decide
  cases order
  · exact hjoin a b
  · exact hjoin b a

theorem nibValue_toNat : ∀ v : BitVec 8, (nibValue v).toNat = v.toNat / 16 := by decide

/-- The byte that the flush of a pending nibble writes (R73). -/
theorem flushed_of_pending {s : State} (h : nibPending s.outNib = true) :
    flushed s = [joinNibbles s.nibbleOrder (nibValue s.outNib) 0#4] := by
  rw [flushed, outPending_of_pending h, joinNibbles_eq_byteOf, nibValue_toNat]
  rfl

/-- The flush of a pending nibble (R73). -/
theorem flushNib_appends {s : State} (hroom : roomFor s (flushed s).length) :
    ∃ t, flushNib s = .next t ∧ appends s t (flushed s) (nibAfterBytes s) := by
  cases h : nibPending s.outNib
  case false =>
    rw [flushed_of_idle h, nibAfterBytes_of_idle h]
    exact ⟨s, flushNib_idle h, appends_nil s⟩
  case true =>
    rw [flushed_of_pending h] at hroom ⊢
    rw [nibAfterBytes_of_pending h, flushNib_pending h]
    exact andThen_setOutNib_appends (texAppend_appends hroom _) 0#8

/-- A whole-byte write flushes, then appends (R73). -/
theorem wrByte_appends {s : State} (b : Byte) (hroom : roomFor s ((flushed s).length + 1)) :
    ∃ t, wrByte b s = .next t ∧ appends s t (flushed s ++ [b]) (nibAfterBytes s) := by
  refine andThen_appends hroom (flushNib_appends (by omega)) ?_
  rintro u hnib - hu
  rw [← hnib]
  exact texAppend_appends hu b

/-- With nothing pending, bytes are appended as they are (R73). -/
theorem wrBytes_appends_of_idle {l : List Byte} {s : State} (hidle : nibPending s.outNib = false)
    (hroom : roomFor s l.length) :
    ∃ t, wrBytes l s = .next t ∧ appends s t l s.outNib := by
  induction l generalizing s with
  | nil => exact ⟨s, rfl, appends_nil s⟩
  | cons b rest ih =>
    rw [List.length_cons] at hroom
    rw [wrBytes, wrByte_idle hidle]
    refine andThen_appends (out := [b]) (by rw [List.length_singleton]; omega)
      (texAppend_appends (by omega) b) ?_
    rintro u hnib - hu
    rw [← hnib] at hidle ⊢
    exact ih hidle hu

/-- Bytes are appended in order after the flush of a pending nibble (R73). -/
theorem wrBytes_appends {l : List Byte} {s : State} (hl : l ≠ [])
    (hroom : roomFor s ((flushed s).length + l.length)) :
    ∃ t, wrBytes l s = .next t ∧ appends s t (flushed s ++ l) (nibAfterBytes s) := by
  obtain ⟨b, rest, rfl⟩ := List.exists_cons_of_ne_nil hl
  rw [List.length_cons] at hroom
  rw [wrBytes, List.append_cons]
  refine andThen_appends (by rw [List.length_append, List.length_singleton]; omega)
    (wrByte_appends b (by omega)) ?_
  rintro u hnib - hu
  have hidle : nibPending u.outNib = false := by rw [hnib, nibPending_nibAfterBytes]
  rw [← hnib]
  exact wrBytes_appends_of_idle hidle hu

/-- A 16-bit word is written as its two bytes, low byte first (R75). -/
theorem wrWord16_eq_wrBytes (w : BitVec 16) (s : State) :
    wrWord16 w s = wrBytes [w.extractLsb' 0 8, w.extractLsb' 8 8] s := by
  have hlast : ∀ b u, wrByte b u = wrBytes [b] u := by
    intro b u
    rw [wrBytes]
    cases wrByte b u <;> rfl
  rw [wrWord16, funext (hlast (w.extractLsb' 8 8)), wrBytes]

/-- A nibble that completes the pending one appends the byte of both (R74). -/
theorem wrNib_appends_of_pending {s : State} (hpend : nibPending s.outNib = true)
    (hroom : roomFor s 1) (v : Nibble) :
    ∃ t, wrNib v s = .next t ∧
      appends s t [byteOf s.nibbleOrder (nibValue s.outNib).toNat v.toNat] 0#8 := by
  rw [wrNib_second hpend, joinNibbles_eq_byteOf]
  exact andThen_setOutNib_appends (texAppend_appends hroom _) 0#8

/-- The first of a pair of nibbles waits for the second, and the byte of both is appended (R74). -/
theorem wrNib_pair_appends {s : State} (hidle : nibPending s.outNib = false) (hroom : roomFor s 1)
    (a b : Nibble) :
    ∃ t, andThen (wrNib a s) (wrNib b) = .next t ∧
      appends s t [byteOf s.nibbleOrder a.toNat b.toNat] 0#8 := by
  obtain ⟨t, hstep, ht⟩ := wrNib_appends_of_pending (s := s.setOutNib (nibHolding a))
    (nibPending_holding a) hroom b
  rw [State.setOutNib_outNib, nibValue_holding, State.setOutNib_nibbleOrder] at ht
  refine ⟨t, ?_, appends_of_setOutNib ht⟩
  rw [wrNib_first hidle, andThen_next, hstep]

/-- With nothing pending, nibbles are appended as `paired` pairs them (R74). -/
theorem wrNibs_appends_of_idle : ∀ (l : List Nibble) (s : State), nibPending s.outNib = false →
    (l = [] → s.outNib = 0#8) →
    roomFor s (paired s.nibbleOrder (l.map BitVec.toNat)).1.length →
    ∃ t, wrNibs l s = .next t ∧
      appends s t (paired s.nibbleOrder (l.map BitVec.toNat)).1
        (paired s.nibbleOrder (l.map BitVec.toNat)).2
  | [], s, _, hzero, _ => by
    have hnil : appends s s [] s.outNib := appends_nil s
    rw [hzero rfl] at hnil
    exact ⟨s, rfl, hnil⟩
  | [v], s, hidle, _, _ => by
    refine ⟨s.setOutNib (nibHolding v), by rw [wrNibs, wrNib_first hidle]; rfl, ?_⟩
    have hheld : BitVec.ofNat 8 (16 * v.toNat + 1) = nibHolding v := by
      rw [← nibHolding_ofNat v.isLt, BitVec.ofNat_toNat, BitVec.setWidth_eq]
    simp only [List.map_cons, List.map_nil, paired, hheld]
    exact appends_setOutNib (appends_nil s) _
  | a :: b :: rest, s, hidle, _, hroom => by
    simp only [List.map_cons, paired, List.length_cons] at hroom ⊢
    have hpair : wrNibs (a :: b :: rest) s =
        andThen (andThen (wrNib a s) (wrNib b)) (wrNibs rest) := by
      rw [andThen_assoc]
      rfl
    rw [hpair]
    refine andThen_appends (out := [_]) (by rw [List.length_singleton]; omega)
      (wrNib_pair_appends hidle (by omega) a b) ?_
    intro u hnib horder hu
    rw [← horder] at hu ⊢
    exact wrNibs_appends_of_idle rest u (by rw [hnib, nibPending_zero]) (fun _ => hnib) hu

/-- Nibbles are appended as `paired` pairs them, a pending one first (R74). -/
theorem wrNibs_appends {l : List Nibble} {s : State} (hl : l ≠ [])
    (hroom : roomFor s (paired s.nibbleOrder (outPending s ++ l.map BitVec.toNat)).1.length) :
    ∃ t, wrNibs l s = .next t ∧
      appends s t (paired s.nibbleOrder (outPending s ++ l.map BitVec.toNat)).1
        (paired s.nibbleOrder (outPending s ++ l.map BitVec.toNat)).2 := by
  cases h : nibPending s.outNib
  case false =>
    rw [outPending_of_idle h, List.nil_append] at hroom ⊢
    exact wrNibs_appends_of_idle l s h (fun hnil => absurd hnil hl) hroom
  case true =>
    obtain ⟨v, rest, rfl⟩ := List.exists_cons_of_ne_nil hl
    simp only [outPending_of_pending h, List.map_cons, List.cons_append, List.nil_append, paired,
      List.length_cons] at hroom ⊢
    rw [wrNibs, ← nibValue_toNat]
    refine andThen_appends (out := [_]) (by rw [List.length_singleton]; omega)
      (wrNib_appends_of_pending h (by omega) v) ?_
    intro u hnib horder hu
    rw [← horder] at hu ⊢
    exact wrNibs_appends_of_idle rest u (by rw [hnib, nibPending_zero]) (fun _ => hnib) hu

end Sys2Proof.Machine

/-! What ENCPX writes of a color (R210, R211): the channels as the statements' numbers, and the bytes, words and
nibbles of each format. -/

namespace Sys2Proof.Machine

open Sys2Proof.Claims

/-! ### Channels -/

theorem chanA_toNat (c : Color) : (chanA c).toNat = alpha c := by
  have hc : c.toNat < 2 ^ 32 := c.isLt
  rw [chanA, BitVec.extractLsb'_toNat, Nat.shiftRight_eq_div_pow, alpha]
  omega

theorem chanR_toNat (c : Color) : (chanR c).toNat = red c := by
  rw [chanR, BitVec.extractLsb'_toNat, Nat.shiftRight_eq_div_pow, red]

theorem chanG_toNat (c : Color) : (chanG c).toNat = green c := by
  rw [chanG, BitVec.extractLsb'_toNat, Nat.shiftRight_eq_div_pow, green]

theorem chanB_toNat (c : Color) : (chanB c).toNat = blue c := by
  rw [chanB, BitVec.extractLsb'_toNat, Nat.shiftRight_eq_div_pow, blue, pow_zero, Nat.div_one]

theorem channel_toNat (b : Byte) : channel b.toNat = b := by
  rw [channel, BitVec.ofNat_toNat, BitVec.setWidth_eq]

/-- The bytes of the channels, as the statements write them (R12). -/
theorem channels_eq (c : Color) : chanA c = channel (alpha c) ∧ chanR c = channel (red c) ∧
    chanG c = channel (green c) ∧ chanB c = channel (blue c) := by
  rw [← chanA_toNat, ← chanR_toNat, ← chanG_toNat, ← chanB_toNat]
  simp only [channel_toNat, and_self]

/-! Down-conversion is integer division, and no quotient wraps (R211). -/

theorem narrow1_toNat (b : Byte) : (narrow1 b).toNat = b.toNat / 128 := by
  have hb : b.toNat < 256 := b.isLt
  rw [narrow1, BitVec.toNat_ofNat]
  omega

theorem narrow4_toNat (b : Byte) : (narrow4 b).toNat = b.toNat / 16 := by
  have hb : b.toNat < 256 := b.isLt
  rw [narrow4, BitVec.toNat_ofNat]
  omega

theorem narrow5_toNat (b : Byte) : (narrow5 b).toNat = b.toNat / 8 := by
  have hb : b.toNat < 256 := b.isLt
  rw [narrow5, BitVec.toNat_ofNat]
  omega

theorem narrow6_toNat (b : Byte) : (narrow6 b).toNat = b.toNat / 4 := by
  have hb : b.toNat < 256 := b.isLt
  rw [narrow6, BitVec.toNat_ofNat]
  omega

/-! ### The bytes and nibbles of a format -/

/-- ENCPX with a good format encodes `COLOR` (R210). -/
theorem exec_encpx {s : State} {f : Format} (hf : s.fmt = formatCode f) :
    exec .encpx s = encodePixel f s.color s :=
  withFormat_some (formatOf_eq_some.mpr hf) _

/-- Each format made of whole bytes writes its channels in order (R220, R221, R225 to R228). -/
theorem encodePixel_wholeBytes {f : Format} {c : Color} {out : List Nat}
    (h : wholeBytes (formatCode f) c = some out) :
    out ≠ [] ∧ encodePixel f c = wrBytes (out.map channel) := by
  obtain ⟨hA, hR, hG, hB⟩ := channels_eq c
  cases f
  case rgba8888 | rgb888 | la88 | hl88 | l8 | a8 =>
    obtain rfl : _ = out := by simpa [wholeBytes, formatCode] using h
    refine ⟨List.cons_ne_nil _ _, funext fun s => ?_⟩
    simp only [encodePixel, hA, hR, hG, hB, List.map_cons, List.map_nil]
  -- No other format is made of whole bytes.
  all_goals simp [wholeBytes, formatCode] at h

/-- The packed words, field above field (R222, R223). -/
theorem pack5551_toNat (c : Color) :
    (pack5551 c).toNat = red c / 8 * 2048 + green c / 8 * 64 + blue c / 8 * 2 + alpha c / 128 := by
  simp only [pack5551, toNat_append, narrow5_toNat, narrow1_toNat, chanA_toNat, chanR_toNat,
    chanG_toNat, chanB_toNat]
  omega

theorem pack565_toNat (c : Color) :
    (pack565 c).toNat = red c / 8 * 2048 + green c / 4 * 32 + blue c / 8 := by
  simp only [pack565, toNat_append, narrow5_toNat, narrow6_toNat, chanR_toNat, chanG_toNat,
    chanB_toNat]
  omega

/-- A 16-bit word is written as the remainder and the quotient by 256 (R75). -/
theorem wrWord16_eq (w : BitVec 16) :
    wrWord16 w = wrBytes [channel (w.toNat % 256), channel (w.toNat / 256)] := by
  have hw : w.toNat < 2 ^ 16 := w.isLt
  have hlow : w.extractLsb' 0 8 = channel (w.toNat % 256) := by
    rw [← channel_toNat (w.extractLsb' 0 8), toNat_field, pow_zero, Nat.div_one]
    rfl
  have hhigh : w.extractLsb' 8 8 = channel (w.toNat / 256) := by
    rw [← channel_toNat (w.extractLsb' 8 8), toNat_field]
    congr 1
    omega
  funext s
  rw [wrWord16_eq_wrBytes, hlow, hhigh]

/-- The packed formats write their word, low byte first (R222, R223). -/
theorem encodePixel_packed {f : Format} {c : Color} {w : Nat}
    (h : packedWord (formatCode f) c = some w) :
    encodePixel f c = wrBytes [channel (w % 256), channel (w / 256)] := by
  cases f
  case rgba5551 =>
    obtain rfl : _ = w := by simpa [packedWord, formatCode] using h
    rw [← pack5551_toNat, ← wrWord16_eq]
    rfl
  case rgb565 =>
    obtain rfl : _ = w := by simpa [packedWord, formatCode] using h
    rw [← pack565_toNat, ← wrWord16_eq]
    rfl
  -- No other format is a packed word.
  all_goals simp [packedWord, formatCode] at h

/-- Each nibble format writes its channels' high halves in order (R224, R229 to R231). -/
theorem encodePixel_nibbles {f : Format} {c : Color} {v : List Nat}
    (h : nibblesOf (formatCode f) c = some v) :
    ∃ l : List Nibble, l ≠ [] ∧ l.map BitVec.toNat = v ∧ encodePixel f c = wrNibs l := by
  cases f
  case rgba4444 | la44 | l4 | a4 =>
    obtain rfl : _ = v := by simpa [nibblesOf, formatCode] using h
    refine ⟨_, ?_, ?_, rfl⟩
    · exact List.cons_ne_nil _ _
    · simp only [List.map_cons, List.map_nil, narrow4_toNat, chanA_toNat, chanR_toNat, chanG_toNat,
        chanB_toNat]
  -- No other format is made of nibbles.
  all_goals simp [nibblesOf, formatCode] at h

/-! ### The encode bundle -/

/-- The last color of a bundle encodes it and writes the block's bytes (R214). -/
theorem etcPut_full {s : State} (h : s.ebCnt = 15#4) (hasAlpha : Bool) (c : Color) :
    etcPut hasAlpha c s =
      andThen (wrBytes (Config.blockEncode hasAlpha (collect s c)).toList (s.setEb (collect s c)))
        fun u => .next (u.setEbCnt 0#4) := by
  simp [etcPut, h]

/-- The bundle's fields are not part of what a stream write looks at or leaves. -/
theorem appends_setEbCnt {s t : State} {e : Bundle} {out : List Byte} {nib : BitVec 8}
    (h : appends (s.setEb e) t out nib) (k : BitVec 4) :
    appends { s with eb := e, ebCnt := k } (t.setEbCnt k) out nib := by
  obtain ⟨ht, hnew, hold⟩ := h
  refine ⟨?_, hnew, hold⟩
  rw [ht]
  rfl

/-- ENCPX of ETC1 and ETC1A4 puts `COLOR` into the encode bundle (R232, R233). -/
theorem exec_encpx_etc {s : State} {hasAlpha : Bool} (hf : s.fmt = if hasAlpha then 13#4 else 12#4) :
    exec .encpx s = etcPut hasAlpha s.color s := by
  cases hasAlpha
  · exact exec_encpx (f := .etc1) hf
  · exact exec_encpx (f := .etc1a4) hf

end Sys2Proof.Machine

namespace Sys2Proof.Proofs

open Sys2Proof.Machine Sys2Proof.Claims

/-- Settles O32: the first byte flushes what is pending, and the others follow it. -/
theorem wholeByteFormatsEncode : Obligations.WholeByteFormatsEncode := by
  unfold Obligations.WholeByteFormatsEncode
  intro s out hout hroom
  obtain ⟨f, hf⟩ := exists_formatCode_of_listed (wholeBytes · _) hout rfl rfl
  rw [hf] at hout
  obtain ⟨hne, hpixel⟩ := encodePixel_wholeBytes hout
  rw [exec_encpx hf, hpixel]
  exact wrBytes_appends (by simpa using hne) (by rwa [List.length_map])

/-- Settles O33: the packed word is written as two whole bytes. -/
theorem packedFormatsEncode : Obligations.PackedFormatsEncode := by
  unfold Obligations.PackedFormatsEncode
  intro s w hw hroom
  obtain ⟨f, hf⟩ := exists_formatCode_of_listed (packedWord · _) hw rfl rfl
  rw [hf] at hw
  rw [exec_encpx hf, encodePixel_packed hw]
  exact wrBytes_appends (List.cons_ne_nil _ _) hroom

/-- Settles O34: the nibbles join a pending one in pairs. -/
theorem nibbleFormatsEncode : Obligations.NibbleFormatsEncode := by
  unfold Obligations.NibbleFormatsEncode
  intro s v hv out hroom
  obtain ⟨f, hf⟩ := exists_formatCode_of_listed (nibblesOf · _) hv rfl rfl
  rw [hf] at hv
  obtain ⟨l, hne, rfl, hpixel⟩ := encodePixel_nibbles hv
  rw [exec_encpx hf, hpixel]
  exact wrNibs_appends hne hroom

/-- Settles O35: the bundle with the color in its place is kept, or encoded and written when it is full. -/
theorem etcFormatsEncode : Obligations.EtcFormatsEncode := by
  unfold Obligations.EtcFormatsEncode
  intro s hasAlpha hf colors
  have hcollect : collect s s.color = colors := collect_eq_set s s.color
  rw [exec_encpx_etc hf]
  refine ⟨?collected, ?written⟩
  case collected =>
    intro hcnt
    rw [etcPut_collect hcnt, hcollect]
    rfl
  case written =>
    intro hcnt hroom
    have hlen : (Config.blockEncode hasAlpha colors).toList.length = Config.etcBytes hasAlpha :=
      Vector.length_toList
    have hne : (Config.blockEncode hasAlpha colors).toList ≠ [] := by
      apply List.ne_nil_of_length_pos
      rw [hlen]
      cases hasAlpha <;> decide
    rw [etcPut_full hcnt, hcollect]
    obtain ⟨t, hstep, ht⟩ := wrBytes_appends (s := s.setEb colors) hne (by rw [hlen]; exact hroom)
    rw [hstep]
    exact ⟨_, rfl, appends_setEbCnt ht 0#4⟩

end Sys2Proof.Proofs

/-! The strides (R10, R241): `ceil8` is the least multiple of 8 and `npow2` the least power of two not below its
argument, so a legal dimension has a stride of at most `MAX_DIM`. -/

namespace Sys2Proof.Machine

theorem dvd_ceil8 (v : Nat) : 8 ∣ ceil8 v := Nat.dvd_mul_left 8 _

theorem le_ceil8 (v : Nat) : v ≤ ceil8 v := by
  unfold ceil8
  omega

theorem ceil8_le {v m : Nat} (hm : 8 ∣ m) (h : v ≤ m) : ceil8 v ≤ m := by
  unfold ceil8
  omega

/-- Doubling from a power of two that is not past the answer stops at the answer, when the fuel lasts that long. -/
theorem doubleUpTo_two_pow {v fuel j : Nat} (hfuel : v ≤ 2 ^ (j + fuel)) (hj : j ≤ Nat.clog 2 v) :
    doubleUpTo v fuel (2 ^ j) = 2 ^ Nat.clog 2 v := by
  induction fuel generalizing j with
  | zero =>
    have hle : Nat.clog 2 v ≤ j := Nat.clog_le_of_le_pow hfuel
    rw [doubleUpTo, Nat.le_antisymm hj hle]
  | succ fuel ih =>
    rw [doubleUpTo]
    split
    case isTrue hv =>
      rw [Nat.le_antisymm hj (Nat.clog_le_of_le_pow hv)]
    case isFalse hv =>
      have hlt : j < Nat.clog 2 v := (Nat.lt_clog_iff_pow_lt (by decide)).mpr (Nat.lt_of_not_le hv)
      rw [← Nat.pow_succ']
      exact ih (by rwa [Nat.succ_add_eq_add_succ]) hlt

theorem npow2_eq_two_pow (v : Nat) : npow2 v = 2 ^ Nat.clog 2 v :=
  doubleUpTo_two_pow (j := 0) (by simpa using Nat.lt_two_pow_self.le) (Nat.zero_le _)

theorem le_npow2 (v : Nat) : v ≤ npow2 v := by
  rw [npow2_eq_two_pow]
  exact Nat.le_pow_clog (by decide) v

theorem npow2_le {v k : Nat} (h : v ≤ 2 ^ k) : npow2 v ≤ 2 ^ k := by
  rw [npow2_eq_two_pow]
  exact Nat.pow_le_pow_right (by decide) (Nat.clog_le_of_le_pow h)

theorem strideOf_unpadded (d : Nat) : strideOf 0#1 d = ceil8 d := if_neg (by decide)

theorem strideOf_padded (d : Nat) : strideOf 1#1 d = npow2 (ceil8 d) := if_pos rfl

/-- `MAX_DIM` is a multiple of 8 and a power of two, so no stride of a legal dimension passes it (R24, R25). -/
theorem strideOf_le_maxDim (pad : BitVec 1) {d : Nat} (hd : d ≤ Config.maxDim) :
    strideOf pad d ≤ Config.maxDim := by
  have hceil : ceil8 d ≤ Config.maxDim := ceil8_le (by decide) hd
  unfold strideOf
  split
  · exact npow2_le (k := 14) hceil
  · exact hceil

end Sys2Proof.Machine

namespace Sys2Proof.Proofs

open Sys2Proof.Machine

/-- Settles O37: the stride is `ceil8` without padding and `npow2` of it with padding. -/
theorem stridesAreLeast : Obligations.StridesAreLeast := by
  unfold Obligations.StridesAreLeast
  refine ⟨fun s => ⟨rfl, rfl⟩, fun d => ?_⟩
  rw [strideOf_unpadded, strideOf_padded]
  refine ⟨?unpadded, ?padded⟩
  case unpadded => exact ⟨dvd_ceil8 d, le_ceil8 d, fun m => ceil8_le⟩
  case padded => exact ⟨⟨_, npow2_eq_two_pow _⟩, le_npow2 _, fun k => npow2_le⟩

end Sys2Proof.Proofs

/-! The generator (R243 to R247): the model's shifts and masks as the arithmetic of the statements, and the bound
of a coordinate (R27). -/

namespace Sys2Proof.Machine

open Sys2Proof.Claims

theorem bit_lt_two (i k : Nat) : bit i k < 2 := Nat.mod_lt _ (by decide)

/-- Index bit `k + j`, moved to bit `k` and masked (R245). -/
theorem shiftRight_and_two_pow (i j k : Nat) : (i >>> j) &&& 2 ^ k = 2 ^ k * bit i (j + k) := by
  rw [Nat.and_two_pow, Nat.testBit_shiftRight, Nat.toNat_testBit, Nat.mul_comm, bit]

/-- Three bits in distinct places add up. -/
theorem or_three_bits : ∀ a < 2, ∀ b < 2, ∀ c < 2,
    2 ^ 2 * a ||| 2 ^ 1 * b ||| c = 4 * a + 2 * b + c := by decide

theorem mortonX_eq_inTileX (i : Nat) : mortonX i = inTileX i := by
  have h4 : (i >>> 2) &&& 4 = 2 ^ 2 * bit i 4 := shiftRight_and_two_pow i 2 2
  have h2 : (i >>> 1) &&& 2 = 2 ^ 1 * bit i 2 := shiftRight_and_two_pow i 1 1
  have h0 : i &&& 1 = bit i 0 := by simp [bit, Nat.and_one_is_mod]
  rw [mortonX, h4, h2, h0, or_three_bits _ (bit_lt_two i 4) _ (bit_lt_two i 2) _ (bit_lt_two i 0), inTileX]

theorem mortonY_eq_inTileY (i : Nat) : mortonY i = inTileY i := by
  have h5 : (i >>> 3) &&& 4 = 2 ^ 2 * bit i 5 := shiftRight_and_two_pow i 3 2
  have h3 : (i >>> 2) &&& 2 = 2 ^ 1 * bit i 3 := shiftRight_and_two_pow i 2 1
  have h1 : (i >>> 1) &&& 1 = bit i 1 := by simpa using shiftRight_and_two_pow i 1 0
  rw [mortonY, h5, h3, h1, or_three_bits _ (bit_lt_two i 5) _ (bit_lt_two i 3) _ (bit_lt_two i 1), inTileY]

theorem inTileX_lt (i : Nat) : inTileX i < 8 := by
  have h4 := bit_lt_two i 4
  have h2 := bit_lt_two i 2
  have h0 := bit_lt_two i 0
  unfold inTileX
  omega

theorem inTileY_lt (i : Nat) : inTileY i < 8 := by
  have h5 := bit_lt_two i 5
  have h3 := bit_lt_two i 3
  have h1 := bit_lt_two i 1
  unfold inTileY
  omega

theorem tileX_eq (n i : Nat) : tileX n i = i / 64 % (n / 8) * 8 := by
  rw [tileX, Nat.shiftRight_eq_div_pow]

theorem tileY_eq (n i : Nat) : tileY n i = i / 64 / (n / 8) * 8 := by
  rw [tileY, Nat.shiftRight_eq_div_pow]

theorem strideFor_eq_stride (s : State) (o : Orientation) : strideFor s o = stride s o := by
  cases o <;> rfl

/-- The model's generator is the statements' (R247). -/
theorem coordOf_eq_coordinate (s : State) (o : Orientation) (i : Nat) :
    coordOf s o i = coordinate s o i := by
  rw [coordOf, strideFor_eq_stride]
  cases o <;>
    simp only [tileCoord, coordinate, tileX_eq, tileY_eq, mortonX_eq_inTileX, mortonY_eq_inTileY]

theorem strideFor_le_maxDim {s : State} (hdims : s.legalDims) (o : Orientation) :
    strideFor s o ≤ Config.maxDim := by
  obtain ⟨-, hwidth, -, hheight⟩ := hdims
  have hsw : s.sw ≤ Config.maxDim := strideOf_le_maxDim s.pad hwidth
  have hsh : s.sh ≤ Config.maxDim := strideOf_le_maxDim s.pad hheight
  cases o with
  | default | transposeTile => exact hsw
  | rotate90 | transpose => exact hsh

/-- A tile column of an index that `IDX` holds, and a place in the tile. -/
theorem tileX_add_lt (n : Nat) {i k : Nat} (hi : i < 2 ^ 28) (hk : k < 8) : tileX n i + k < 2 ^ 25 := by
  have hle : i / 64 % (n / 8) ≤ i / 64 := Nat.mod_le _ _
  rw [tileX_eq]
  omega

/-- A tile row of an index that `IDX` holds, and a place in the tile. -/
theorem tileY_add_lt (n : Nat) {i k : Nat} (hi : i < 2 ^ 28) (hk : k < 8) : tileY n i + k < 2 ^ 25 := by
  have hle : i / 64 / (n / 8) ≤ i / 64 := Nat.div_le_self _ _
  rw [tileY_eq]
  omega

/-- The coordinate of an index that `IDX` holds is below 2^25 on both axes (R27). -/
theorem coordOf_lt {s : State} (hdims : s.legalDims) (o : Orientation) {i : Nat} (hi : i < 2 ^ 28) :
    (coordOf s o i).1 < 2 ^ 25 ∧ (coordOf s o i).2 < 2 ^ 25 := by
  have hx : mortonX i < 8 := by rw [mortonX_eq_inTileX]; exact inTileX_lt i
  have hy : mortonY i < 8 := by rw [mortonY_eq_inTileY]; exact inTileY_lt i
  cases o with
  | default => exact ⟨tileX_add_lt _ hi hx, tileY_add_lt _ hi hy⟩
  | transposeTile => exact ⟨tileX_add_lt _ hi hy, tileY_add_lt _ hi hx⟩
  | rotate90 =>
    -- The reflected axis is below the stride.
    have hstride : strideFor s .rotate90 ≤ 16384 := strideFor_le_maxDim hdims .rotate90
    refine ⟨tileY_add_lt _ hi hy, ?_⟩
    simp only [coordOf, tileCoord]
    omega
  | transpose => exact ⟨tileY_add_lt _ hi hy, tileX_add_lt _ hi hx⟩

end Sys2Proof.Machine

/-! COORD (R250): the orientation that a code names, `INB`, and the state that the command leaves. -/

namespace Sys2Proof.Machine

open Sys2Proof.Claims

/-- The statements' table of codes is the model's (R105). -/
theorem orientationOf_eq_some {c : BitVec 4} {o : Orientation} :
    orientationOf c = some o ↔ c = orientationCode o := by
  cases o <;> revert c <;> decide

theorem inBounds_iff_inside (s : State) (xy : Nat × Nat) : inBounds s xy = true ↔ inside s xy := by
  simp [inBounds, inside]

/-- Writing bit 2 of a register, `INB` in STATUS (R29). -/
theorem withBit_two : ∀ (v : BitVec 8) (b : Bool),
    withBit v 2 b = (v &&& 0xFB#8) ||| (if b then 0x04#8 else 0#8) := by decide

theorem withBit_inBounds (s : State) (xy : Nat × Nat) :
    withBit s.status 2 (inBounds s xy) = withInside s xy := by
  rw [withBit_two]
  simp only [withInside, inBounds_iff_inside, inside]

/-- The state with a coordinate in `X`, `Y` and `INB` (R250). -/
def withCoordinate (s : State) (xy : Nat × Nat) : State :=
  (s.setCoord (BitVec.ofNat 32 xy.1) (BitVec.ofNat 32 xy.2)).withInb (inBounds s xy)

theorem withCoordinate_eq (s : State) (xy : Nat × Nat) :
    withCoordinate s xy =
      { s with x := BitVec.ofNat 32 xy.1, y := BitVec.ofNat 32 xy.2, status := withInside s xy } := by
  rw [← withBit_inBounds]
  rfl

/-- COORD completes with the coordinate of `IDX` (R250). -/
theorem exec_coord {s : State} {o : Orientation} (ho : s.ori = orientationCode o) :
    exec .coord s = .next (withCoordinate s (coordOf s o s.idx.toNat)) :=
  withOrientation_some (orientationOf_eq_some.mpr ho) _

theorem exec_coord_of_badOrientation {s : State} (h : badOrientation s) :
    exec .coord s = .next (failed s 2#8) :=
  withOrientation_none ((orientationOf_eq_none _).mpr h) _

/-- A register of 32 bits holds a coordinate whole (R27). -/
theorem toNat_ofNat_of_lt {n : Nat} (h : n < 2 ^ 25) : (BitVec.ofNat 32 n).toNat = n :=
  (BitVec.toNat_ofNat n 32).trans (Nat.mod_eq_of_lt (Nat.lt_trans h (by decide)))

end Sys2Proof.Machine

namespace Sys2Proof.Proofs

open Sys2Proof.Machine Sys2Proof.Claims

/-- Settles O38: the model's generator is the spec's formula, and its coordinates fit `X` and `Y`. -/
theorem coordEvaluatesTheGenerator : Obligations.CoordEvaluatesTheGenerator := by
  unfold Obligations.CoordEvaluatesTheGenerator
  refine ⟨by decide, ?evaluates, fun s => exec_coord_of_badOrientation⟩
  case evaluates =>
    intro s o ho hdims
    obtain ⟨hx, hy⟩ := coordOf_lt hdims o s.idx.isLt
    rw [← coordOf_eq_coordinate]
    refine ⟨_, exec_coord ho, ?frame, ?coordinates⟩
    case frame =>
      rw [withCoordinate_eq]
    case coordinates => exact Prod.ext (toNat_ofNat_of_lt hx) (toNat_ofNat_of_lt hy)

end Sys2Proof.Proofs

/-! RDPIX and WRPIX (R260, R262): with legal dimensions a pixel of the buffer has an address in PIX (R62), so a
sample completes, and so does a store. -/

namespace Sys2Proof.Machine

open Sys2Proof.Claims

/-- A pixel of the buffer has an address in PIX (R62). -/
theorem pixAddr_lt_of_inside {s : State} {xy : Nat × Nat} (hdims : s.legalDims) (hin : inside s xy) :
    pixAddr s xy < Config.pixWords := by
  obtain ⟨-, hwidth, -, hheight⟩ := hdims
  obtain ⟨hx, hy⟩ := hin
  calc xy.2 * s.width.toNat + xy.1
      < (xy.2 + 1) * s.width.toNat := by rw [Nat.succ_mul]; omega
    _ ≤ 16384 * 16384 := Nat.mul_le_mul (Nat.le_trans hy hheight) hwidth

/-- The clamped coordinate is inside the buffer, which is not empty (R24, R260). -/
theorem inside_clamp {s : State} (hdims : s.legalDims) (xy : Nat × Nat) : inside s (clamp s xy) := by
  obtain ⟨hwidth, -, hheight, -⟩ := hdims
  simp only [inside, clamp]
  omega

/-- A sample reads the clamped pixel (R260, R285). -/
theorem samplePixel_of_legalDims {s : State} (hdims : s.legalDims) (xy : Nat × Nat)
    (k : Color → Result) : samplePixel s xy k = k (pixAt s (pixAddr s (clamp s xy))) :=
  pixRead_room (pixAddr_lt_of_inside hdims (inside_clamp hdims xy)) k

/-- A store inside the buffer writes one word of PIX (R262, R280). -/
theorem storePixel_of_inside {s : State} {xy : Nat × Nat} (hdims : s.legalDims) (hin : inside s xy)
    (c : Color) : storePixel s xy c = .next (s.setPix (s.pix.write (pixAddr s xy) c)) := by
  rw [storePixel, if_pos ((inBounds_iff_inside s xy).mpr hin)]
  exact pixWrite_room (pixAddr_lt_of_inside hdims hin) c

/-- A store outside the buffer is discarded (R262, R280). -/
theorem storePixel_of_not_inside {s : State} {xy : Nat × Nat} (hout : ¬ inside s xy) (c : Color) :
    storePixel s xy c = .next s :=
  if_neg (mt (inBounds_iff_inside s xy).mp hout)

theorem exec_rdpix (s : State) :
    exec .rdpix s = samplePixel s (s.x.toNat, s.y.toNat) fun c => .next (s.setColor c) := rfl

theorem exec_wrpix (s : State) : exec .wrpix s = storePixel s (s.x.toNat, s.y.toNat) s.color := rfl

end Sys2Proof.Machine

namespace Sys2Proof.Proofs

open Sys2Proof.Machine Sys2Proof.Claims

/-- Settles O42: the sample does not fault, and its color is the one register written. -/
theorem rdpixReadsTheClampedPixel : Obligations.RdpixReadsTheClampedPixel := by
  unfold Obligations.RdpixReadsTheClampedPixel
  refine ⟨by decide, fun s hdims => ?_⟩
  rw [exec_rdpix, samplePixel_of_legalDims hdims]
  -- `address` and `clamped` are the statements' names of `pixAddr` and `clamp`.
  rfl

/-- Settles O43: inside the buffer one word of PIX is written, outside the store is discarded. -/
theorem wrpixWritesInsideOnly : Obligations.WrpixWritesInsideOnly := by
  unfold Obligations.WrpixWritesInsideOnly
  refine ⟨by decide, fun s hdims => ⟨?inside, ?outside⟩⟩
  case inside =>
    intro hin
    rw [exec_wrpix, storePixel_of_inside hdims hin]
    refine ⟨_, rfl, rfl, ?written, ?others⟩
    case written => exact (pixAt_write s _ _ s.color).trans (if_pos rfl)
    case others =>
      intro a ha
      exact (pixAt_write s _ a s.color).trans (if_neg ha)
  case outside =>
    intro hout
    rw [exec_wrpix, storePixel_of_not_inside hout]

end Sys2Proof.Proofs

/-! The frame of LOAD (R281): which PIX word an index names, what one pass of the loop leaves, and what the whole
loop leaves. With legal dimensions every pass completes, and `DONE_CNT` holds every index. -/

namespace Sys2Proof.Machine

open Sys2Proof.Claims

/-- Index `i` has a coordinate inside the buffer, and that pixel is the PIX word `a` (R62, R280). -/
def namesWord (s : State) (o : Orientation) (i a : Nat) : Prop :=
  inside s (coordinate s o i) ∧ address s (coordinate s o i) = a

/-! ### What a load frame keeps -/

theorem LoadFrame.legalDims {s t : State} (h : LoadFrame s t) (hdims : s.legalDims) : t.legalDims := by
  obtain ⟨_, _, _, _, _, _, _, rfl⟩ := h
  exact hdims

/-- The words that the indices name depend on the settings only (R240). -/
theorem LoadFrame.namesWord_iff {s t : State} (h : LoadFrame s t) (o : Orientation) (i a : Nat) :
    namesWord t o i a ↔ namesWord s o i a := by
  obtain ⟨_, _, _, _, _, _, _, rfl⟩ := h
  exact Iff.rfl

/-- The final state of LOAD in terms of its own fields, as the statements write it (R281). -/
theorem LoadFrame.eq_with {s t : State} (h : LoadFrame s t) :
    t = { s with
      inPtr := t.inPtr, inNib := t.inNib, bqCnt := t.bqCnt, bq := t.bq, status := t.status,
      doneCnt := t.doneCnt, pix := t.pix } := by
  obtain ⟨_, _, _, _, _, _, _, rfl⟩ := h
  rfl

/-- Writing `EOS` keeps every other bit of STATUS (R29). -/
theorem withBit_one_and : ∀ (v : BitVec 8) (b : Bool), withBit v 1 b &&& 0xFD#8 = v &&& 0xFD#8 := by decide

theorem status_withEos_and (s : State) (b : Bool) :
    (s.withEos b).status &&& 0xFD#8 = s.status &&& 0xFD#8 :=
  withBit_one_and s.status b

/-! ### One pass -/

/-- With legal dimensions a store completes and changes no word but that of a pixel inside (R262, R280). -/
theorem exists_storePixel {s : State} (hdims : s.legalDims) (xy : Nat × Nat) (c : Color) :
    ∃ t, storePixel s xy c = .next t ∧ t.status = s.status ∧
      ∀ a, ¬ (inside s xy ∧ address s xy = a) → pixAt t a = pixAt s a := by
  by_cases hin : inside s xy
  case pos =>
    refine ⟨_, storePixel_of_inside hdims hin c, rfl, fun a ha => ?_⟩
    have hne : a ≠ pixAddr s xy := fun h => ha ⟨hin, h.symm⟩
    exact (pixAt_write s _ a c).trans (if_neg hne)
  case neg => exact ⟨s, storePixel_of_not_inside hin c, rfl, fun _ _ => rfl⟩

/-- The store of pixel `i` of the stream completes and changes no word of PIX but the one that `i` names (R280). -/
theorem exists_loadPass {s : State} (hdims : s.legalDims) (f : Format) (o : Orientation) (i : Nat) :
    ∃ u, storePixel (decodePixel f s).2 (coordOf s o i) (decodePixel f s).1 = .next u ∧
      LoadFrame s u ∧ u.status = s.status ∧ ∀ a, ¬ namesWord s o i a → pixAt u a = pixAt s a := by
  have hdecode : LoadFrame s (decodePixel f s).2 := (decodePixel_frame f s).toLoad
  obtain ⟨u, hu, hstatus, hpix⟩ :=
    exists_storePixel (hdecode.legalDims hdims) (coordOf s o i) (decodePixel f s).1
  refine ⟨u, hu, hdecode.trans (storePixel_frame hu), ?status, fun a ha => ?pix⟩
  -- Decoding touches neither STATUS nor PIX nor the dimensions.
  case status =>
    obtain ⟨_, _, _, _, hd⟩ := decodePixel_frame f s
    rw [hstatus, hd]
  case pix =>
    rw [namesWord, ← coordOf_eq_coordinate] at ha
    obtain ⟨_, _, _, _, hd⟩ := decodePixel_frame f s
    rw [hd] at hpix
    exact hpix a ha

/-! ### The loop -/

/-- A load that goes on from index `i` keeps every bit of STATUS but `EOS`, reaches the indices from `i` up to
`DONE_CNT`, and keeps every word of PIX that none of them names (R281). -/
structure LoadKeeps (o : Orientation) (i : Nat) (s t : State) : Prop where
  status : t.status &&& 0xFD#8 = s.status &&& 0xFD#8
  le_doneCnt : i ≤ t.doneCnt.toNat
  pixAt_eq : ∀ a, (∀ j, i ≤ j → j < t.doneCnt.toNat → ¬ namesWord s o j a) → pixAt t a = pixAt s a

/-- A load that stops at index `i` keeps the whole of PIX. -/
theorem LoadKeeps.of_stop {o : Orientation} {i : Nat} {s u : State} (hi : i ≤ 2 ^ 28)
    (hstatus : u.status &&& 0xFD#8 = s.status &&& 0xFD#8) (hpix : u.pix = s.pix) :
    LoadKeeps o i s (u.setDoneCnt (BitVec.ofNat 29 i)) where
  status := hstatus
  le_doneCnt := by
    have hmod : i % 2 ^ 29 = i := Nat.mod_eq_of_lt (by omega)
    rw [State.setDoneCnt_doneCnt, BitVec.toNat_ofNat, hmod]
  pixAt_eq a _ := pixAt_congr hpix a

/-- A pass at index `i`, and then a load that goes on from the next index. -/
theorem LoadKeeps.of_pass {o : Orientation} {i : Nat} {s u t : State} (hframe : LoadFrame s u)
    (hstatus : u.status = s.status) (hpix : ∀ a, ¬ namesWord s o i a → pixAt u a = pixAt s a)
    (h : LoadKeeps o (i + 1) u t) : LoadKeeps o i s t where
  status := by rw [h.status, hstatus]
  le_doneCnt := Nat.le_of_succ_le h.le_doneCnt
  pixAt_eq a ha := by
    have hlater : ∀ j, i + 1 ≤ j → j < t.doneCnt.toNat → ¬ namesWord u o j a := fun j hij hj =>
      mt (hframe.namesWord_iff o j a).mp (ha j (Nat.le_of_succ_le hij) hj)
    calc pixAt t a = pixAt u a := h.pixAt_eq a hlater
      _ = pixAt s a := hpix a (ha i (Nat.le_refl i) h.le_doneCnt)

theorem loadLoop_of_hasInput {f : Format} {s : State} (hin : hasInput f s = true) (o : Orientation)
    (left i : Nat) :
    loadLoop f o (left + 1) i s =
      andThen (storePixel (decodePixel f s).2 (coordOf s o i) (decodePixel f s).1)
        (loadLoop f o left (i + 1)) := by
  simp only [loadLoop, if_pos hin]

theorem loadLoop_of_not_hasInput {f : Format} {s : State} (hin : ¬ hasInput f s = true)
    (o : Orientation) (left i : Nat) :
    loadLoop f o (left + 1) i s = .next ((s.withEos true).setDoneCnt (BitVec.ofNat 29 i)) := by
  simp only [loadLoop, if_neg hin]

/-- With legal dimensions the loop of LOAD completes, whatever the input holds (R281). -/
theorem exists_loadLoop {s : State} (hdims : s.legalDims) (f : Format) (o : Orientation) {left i : Nat}
    (hlen : i + left ≤ 2 ^ 28) : ∃ t, loadLoop f o left i s = .next t ∧ LoadKeeps o i s t := by
  induction left generalizing i s with
  | zero => exact ⟨_, rfl, .of_stop hlen rfl rfl⟩
  | succ left ih =>
    by_cases hin : hasInput f s = true
    case pos =>
      obtain ⟨u, hu, hframe, hstatus, hpix⟩ := exists_loadPass hdims f o i
      obtain ⟨t, ht, hkeeps⟩ := ih (hframe.legalDims hdims) (i := i + 1) (by omega)
      refine ⟨t, ?_, .of_pass hframe hstatus hpix hkeeps⟩
      rw [loadLoop_of_hasInput hin, hu, andThen_next, ht]
    case neg =>
      exact ⟨_, loadLoop_of_not_hasInput hin o left i,
        .of_stop (by omega) (status_withEos_and s true) rfl⟩

/-! ### The command -/

/-- There are at most 2^28 indices (R24, R242). -/
theorem seqLength_le {s : State} (hdims : s.legalDims) : seqLength s ≤ 2 ^ 28 := by
  obtain ⟨-, hwidth, -, hheight⟩ := hdims
  calc s.sw * s.sh
      ≤ 16384 * 16384 := Nat.mul_le_mul (strideOf_le_maxDim s.pad hwidth) (strideOf_le_maxDim s.pad hheight)
    _ = 2 ^ 28 := by decide

/-- With a named orientation and a named format LOAD is its loop on the rewound input (R280). -/
theorem exec_load {s : State} {f : Format} {o : Orientation} (hf : s.fmt = formatCode f)
    (ho : s.ori = orientationCode o) :
    exec .load s = loadLoop f o (seqLength s) 0 (rewindInput s) :=
  (withOrientation_some (orientationOf_eq_some.mpr ho) _).trans
    (withFormat_some (formatOf_eq_some.mpr hf) _)

end Sys2Proof.Machine

namespace Sys2Proof.Proofs

open Sys2Proof.Machine Sys2Proof.Claims

/-- Settles O44: LOAD is the loop on the rewound input; the loop completes, and both keep what R281 says. -/
theorem loadChangesOnlyItsOwn : Obligations.LoadChangesOnlyItsOwn := by
  unfold Obligations.LoadChangesOnlyItsOwn
  intro s f o ⟨hf, ho, hdims⟩
  have hrewind : LoadFrame s (rewindInput s) := rewindInput_frame s
  have hlen : 0 + seqLength s ≤ 2 ^ 28 := (Nat.zero_add _).trans_le (seqLength_le hdims)
  obtain ⟨t, ht, hkeeps⟩ := exists_loadLoop (hrewind.legalDims hdims) f o hlen
  refine ⟨t, (exec_load hf ho).trans ht, (hrewind.trans (loadLoop_frame ht)).eq_with, ?status, ?pix⟩
  case status => exact hkeeps.status.trans (status_withEos_and _ false)
  case pix =>
    intro a ha
    have hunnamed : ∀ j, 0 ≤ j → j < t.doneCnt.toNat → ¬ namesWord (rewindInput s) o j a :=
      fun j _ hj hnames =>
        have ⟨hin, haddr⟩ := (hrewind.namesWord_iff o j a).mp hnames
        ha j hj hin haddr
    calc pixAt t a = pixAt (rewindInput s) a := hkeeps.pixAt_eq a hunnamed
      _ = pixAt s a := pixAt_congr rfl a

end Sys2Proof.Proofs

/-! Errors (R300 to R305): which command raises which error in which settings, and what else a command does to
`STATUS.ERR`, which is nothing. -/

namespace Sys2Proof.Machine

open Sys2Proof.Claims

/-- A command raises an error, in the order of R305: LOAD and SAVE check the orientation first. -/
inductive Raises (s : State) : Instr → ErrorKind → Prop
  | illegal (w : Word) : Raises s (.illegal w) .illegalCommand
  | decpx : badFormat s → Raises s .decpx .unsupportedFormat
  | encpx : badFormat s → Raises s .encpx .unsupportedFormat
  | coord : badOrientation s → Raises s .coord .unsupportedOrientation
  | loadOrientation : badOrientation s → Raises s .load .unsupportedOrientation
  | loadFormat : ¬ badOrientation s → badFormat s → Raises s .load .unsupportedFormat
  | saveOrientation : badOrientation s → Raises s .save .unsupportedOrientation
  | saveFormat : ¬ badOrientation s → badFormat s → Raises s .save .unsupportedFormat

/-! ### The commands that raise -/

/-- Every code but those that R301 excludes is the code of an orientation (R105). -/
theorem exists_orientationCode {s : State} (h : ¬ badOrientation s) : ∃ o, s.ori = orientationCode o := by
  obtain ⟨o, ho⟩ := Option.ne_none_iff_exists'.mp (mt (orientationOf_eq_none s.ori).mp h)
  exact ⟨o, orientationOf_eq_some.mp ho⟩

/-- The orientation check stops a command before all else (R301, R305). -/
theorem withOrientation_of_badOrientation {s : State} (h : badOrientation s) (k : Orientation → Result) :
    withOrientation s k = raise .unsupportedOrientation s :=
  withOrientation_none ((orientationOf_eq_none s.ori).mpr h) k

/-- The format check stops a command (R300). -/
theorem withFormat_of_badFormat {s : State} (h : badFormat s) (k : Format → Result) :
    withFormat s k = raise .unsupportedFormat s :=
  withFormat_none ((formatOf_eq_none s.fmt).mpr h) k

/-- A named orientation leads on to the format check (R305). -/
theorem withOrientation_withFormat_of_badFormat {s : State} (ho : ¬ badOrientation s) (hf : badFormat s)
    (k : Orientation → Format → Result) :
    (withOrientation s fun o => withFormat s (k o)) = raise .unsupportedFormat s := by
  obtain ⟨o, ho⟩ := exists_orientationCode ho
  rw [withOrientation_some (orientationOf_eq_some.mpr ho), withFormat_of_badFormat hf]

/-- A command that raises an error does nothing but raise it (R303). -/
theorem exec_eq_raise {s : State} {i : Instr} {e : ErrorKind} (h : Raises s i e) : exec i s = raise e s := by
  cases h with
  | illegal w => rfl
  | decpx hf => exact withFormat_of_badFormat hf _
  | encpx hf => exact withFormat_of_badFormat hf _
  | coord ho => exact withOrientation_of_badOrientation ho _
  | loadOrientation ho => exact withOrientation_of_badOrientation ho _
  | loadFormat ho hf => exact withOrientation_withFormat_of_badFormat ho hf _
  | saveOrientation ho => exact withOrientation_of_badOrientation ho _
  | saveFormat ho hf => exact withOrientation_withFormat_of_badFormat ho hf _

/-- `raise` is the statements' `failed` with the code of the error (R29, R303). -/
theorem raise_eq_failed (e : ErrorKind) (s : State) :
    raise e s = .next (failed s ((errorCode e).setWidth 8)) := rfl

/-- The state after a raised error, as the statements write it (R303). -/
theorem exec_eq_failed {s : State} {i : Instr} {e : ErrorKind} {code : BitVec 8} (h : Raises s i e)
    (hcode : (errorCode e).setWidth 8 = code) : exec i s = .next (failed s code) := by
  rw [exec_eq_raise h, raise_eq_failed, hcode]

theorem exec_of_raises_format {s : State} {i : Instr} (h : Raises s i .unsupportedFormat) :
    exec i s = .next (failed s 1#8) := exec_eq_failed h (by decide)

theorem exec_of_raises_orientation {s : State} {i : Instr} (h : Raises s i .unsupportedOrientation) :
    exec i s = .next (failed s 2#8) := exec_eq_failed h (by decide)

theorem exec_of_raises_illegal {s : State} {i : Instr} (h : Raises s i .illegalCommand) :
    exec i s = .next (failed s 3#8) := exec_eq_failed h (by decide)

/-! ### The commands that do not raise -/

theorem InputFrame.err_eq {s t : State} (h : InputFrame s t) : t.err = s.err := by
  obtain ⟨_, _, _, _, rfl⟩ := h
  rfl

theorem OutputFrame.err_eq {s t : State} (h : OutputFrame s t) : t.err = s.err := by
  obtain ⟨_, _, _, _, _, rfl⟩ := h
  rfl

theorem SaveFrame.err_eq {s t : State} (h : SaveFrame s t) : t.err = s.err := by
  obtain ⟨u, d, hu, rfl⟩ := h
  exact hu.err_eq

/-- If a sample answers a next state, what follows it does, on the color read (R260). -/
theorem exists_of_samplePixel_eq_next {s t : State} {xy : Nat × Nat} {k : Color → Result}
    (h : samplePixel s xy k = .next t) : ∃ c, k c = .next t := by
  unfold samplePixel pixRead at h
  split at h
  · exact ⟨_, h⟩
  · cases h

theorem err_rewindInput (s : State) : (rewindInput s).err = s.err := State.err_withEos _ false

/-- With a named format DECPX keeps `ERR`, at the end of the input too (R172). -/
theorem err_of_exec_decpx {s t : State} (hf : ¬ badFormat s) (h : exec .decpx s = .next t) :
    t.err = s.err := by
  obtain ⟨f, hf⟩ := exists_formatCode hf
  rw [exec_decpx s hf] at h
  split at h
  · cases h
    exact (decodePixel_frame f s).err_eq
  · cases h
    exact State.err_withEos s true

/-- With a named format ENCPX keeps `ERR` (R210). -/
theorem err_of_exec_encpx {s t : State} (hf : ¬ badFormat s) (h : exec .encpx s = .next t) :
    t.err = s.err := by
  obtain ⟨f, hf⟩ := exists_formatCode hf
  rw [exec_encpx hf] at h
  exact (encodePixel_frame h).err_eq

/-- With a named orientation COORD keeps `ERR` (R250). -/
theorem err_of_exec_coord {s t : State} (ho : ¬ badOrientation s) (h : exec .coord s = .next t) :
    t.err = s.err := by
  obtain ⟨o, ho⟩ := exists_orientationCode ho
  rw [exec_coord ho] at h
  cases h
  exact State.err_withInb _ _

theorem err_of_exec_rdpix {s t : State} (h : exec .rdpix s = .next t) : t.err = s.err := by
  rw [exec_rdpix] at h
  obtain ⟨c, hc⟩ := exists_of_samplePixel_eq_next h
  cases hc
  rfl

theorem err_of_exec_wrpix {s t : State} (h : exec .wrpix s = .next t) : t.err = s.err := by
  rw [exec_wrpix] at h
  rcases storePixel_eq_next h with ⟨-, -, rfl⟩ | ⟨-, rfl⟩ <;> rfl

/-- With a named orientation and a named format LOAD keeps `ERR` (R281). -/
theorem err_of_exec_load {s t : State} (ho : ¬ badOrientation s) (hf : ¬ badFormat s)
    (h : exec .load s = .next t) : t.err = s.err := by
  obtain ⟨o, ho⟩ := exists_orientationCode ho
  obtain ⟨f, hf⟩ := exists_formatCode hf
  rw [exec_load hf ho] at h
  obtain ⟨-, herr, -⟩ := loadLoop_status h
  exact herr.trans (err_rewindInput s)

/-- With a named orientation and a named format SAVE is its loop on the emptied output (R285). -/
theorem exec_save {s : State} {f : Format} {o : Orientation} (hf : s.fmt = formatCode f)
    (ho : s.ori = orientationCode o) :
    exec .save s = saveLoop f o (seqLength s) 0 (emptyOutput s) :=
  (withOrientation_some (orientationOf_eq_some.mpr ho) _).trans
    (withFormat_some (formatOf_eq_some.mpr hf) _)

/-- With a named orientation and a named format SAVE keeps `ERR` (R286). -/
theorem err_of_exec_save {s t : State} (ho : ¬ badOrientation s) (hf : ¬ badFormat s)
    (h : exec .save s = .next t) : t.err = s.err := by
  obtain ⟨o, ho⟩ := exists_orientationCode ho
  obtain ⟨f, hf⟩ := exists_formatCode hf
  rw [exec_save hf ho] at h
  exact (saveLoop_frame h).err_eq.trans (emptyOutput_frame s).err_eq

/-! ### Every command -/

/-- A command that completes has raised an error, or it keeps `ERR` (R303). -/
theorem raises_or_err_eq {i : Instr} {s t : State} (h : exec i s = .next t) :
    (∃ e, Raises s i e) ∨ t.err = s.err := by
  cases i with
  | nop => cases h; exact .inr rfl
  | cfg => cases h; exact .inr rfl
  | dim => cases h; exact .inr rfl
  | setidx => cases h; exact .inr rfl
  | setclo => cases h; exact .inr rfl
  | setchi => cases h; exact .inr rfl
  | rstin => cases h; exact .inr (err_rewindInput s)
  | rstout => cases h; exact .inr (emptyOutput_frame s).err_eq
  | decpx =>
    by_cases hf : badFormat s
    · exact .inl ⟨_, .decpx hf⟩
    · exact .inr (err_of_exec_decpx hf h)
  | encpx =>
    by_cases hf : badFormat s
    · exact .inl ⟨_, .encpx hf⟩
    · exact .inr (err_of_exec_encpx hf h)
  | coord =>
    by_cases ho : badOrientation s
    · exact .inl ⟨_, .coord ho⟩
    · exact .inr (err_of_exec_coord ho h)
  | rdpix => exact .inr (err_of_exec_rdpix h)
  | wrpix => exact .inr (err_of_exec_wrpix h)
  | load =>
    by_cases ho : badOrientation s
    · exact .inl ⟨_, .loadOrientation ho⟩
    · by_cases hf : badFormat s
      · exact .inl ⟨_, .loadFormat ho hf⟩
      · exact .inr (err_of_exec_load ho hf h)
  | save =>
    by_cases ho : badOrientation s
    · exact .inl ⟨_, .saveOrientation ho⟩
    · by_cases hf : badFormat s
      · exact .inl ⟨_, .saveFormat ho hf⟩
      · exact .inr (err_of_exec_save ho hf h)
  | illegal w => exact .inl ⟨_, .illegal w⟩

/-- A command that sets `ERR` has raised the error whose code `ERR` holds, and has done nothing else (R303). -/
theorem exists_raises_of_err {i : Instr} {s t : State} (h : exec i s = .next t) (hs : s.err = 0#2)
    (ht : t.err ≠ 0#2) :
    ∃ e, Raises s i e ∧ t.err = errorCode e ∧ t = failed s ((errorCode e).setWidth 8) := by
  rcases raises_or_err_eq h with ⟨e, hraises⟩ | hkept
  case inl =>
    rw [exec_eq_raise hraises] at h
    cases h
    exact ⟨e, hraises, State.err_withErr s (errorCode e), rfl⟩
  case inr => exact absurd (hkept.trans hs) ht

/-- No two errors have the same code (R29). -/
theorem errorCode_inj {e e' : ErrorKind} : errorCode e = errorCode e' ↔ e = e' := by
  cases e <;> cases e' <;> decide

/-- `ERR` tells which error was raised (R29, R303). -/
theorem raises_of_err_eq {i : Instr} {s t : State} {e : ErrorKind} (h : exec i s = .next t)
    (hs : s.err = 0#2) (ht : t.err = errorCode e) : Raises s i e := by
  obtain ⟨-, hcode⟩ := err_raise e s
  obtain ⟨e', hraises, herr, -⟩ := exists_raises_of_err h hs (ht.trans_ne hcode)
  cases errorCode_inj.mp (herr.symm.trans ht)
  exact hraises

end Sys2Proof.Machine

namespace Sys2Proof.Proofs

open Sys2Proof.Machine Sys2Proof.Claims

/-- Settles O23: four rules of `Raises` give the error 1, and `ERR` = 1 comes from those alone. -/
theorem unsupportedFormatIsRaised : Obligations.UnsupportedFormatIsRaised := by
  unfold Obligations.UnsupportedFormatIsRaised
  refine ⟨?raised, ?only, exec_cfg⟩
  case raised =>
    intro s hf
    exact ⟨exec_of_raises_format (.decpx hf), exec_of_raises_format (.encpx hf), fun ho =>
      ⟨exec_of_raises_format (.loadFormat ho hf), exec_of_raises_format (.saveFormat ho hf)⟩⟩
  case only =>
    intro i s t h hs ht
    cases raises_of_err_eq (e := .unsupportedFormat) h hs ht with
    | decpx hf => exact ⟨hf, .inl rfl⟩
    | encpx hf => exact ⟨hf, .inr (.inl rfl)⟩
    | loadFormat _ hf => exact ⟨hf, .inr (.inr (.inl rfl))⟩
    | saveFormat _ hf => exact ⟨hf, .inr (.inr (.inr rfl))⟩

/-- Settles O24: three rules of `Raises` give the error 2, and `ERR` = 2 comes from those alone. -/
theorem unsupportedOrientationIsRaised : Obligations.UnsupportedOrientationIsRaised := by
  unfold Obligations.UnsupportedOrientationIsRaised
  refine ⟨?raised, ?only⟩
  case raised =>
    intro s ho
    exact ⟨exec_of_raises_orientation (.coord ho), exec_of_raises_orientation (.loadOrientation ho),
      exec_of_raises_orientation (.saveOrientation ho)⟩
  case only =>
    intro i s t h hs ht
    cases raises_of_err_eq (e := .unsupportedOrientation) h hs ht with
    | coord ho => exact ⟨ho, .inl rfl⟩
    | loadOrientation ho => exact ⟨ho, .inr (.inl rfl)⟩
    | saveOrientation ho => exact ⟨ho, .inr (.inr rfl)⟩

/-- Settles O25: only a raised error sets `ERR`, and `raise` writes nothing else. -/
theorem errorsArePrecise : Obligations.ErrorsArePrecise := by
  unfold Obligations.ErrorsArePrecise
  intro i s t h hs ht
  obtain ⟨e, -, herr, hfailed⟩ := exists_raises_of_err h hs ht
  rw [herr]
  exact hfailed

/-- Settles O26: the premises of the rules of `Raises` are the order of the checks, and past its own check a
command keeps `ERR`. -/
theorem errorPriority : Obligations.ErrorPriority := by
  unfold Obligations.ErrorPriority
  refine ⟨fun w s => exec_of_raises_illegal (.illegal w), ?bothBad, ?pixel,
    fun s t => err_of_exec_coord, ?formatBad⟩
  case bothBad =>
    intro s ho hf
    exact ⟨exec_of_raises_orientation (.loadOrientation ho),
      exec_of_raises_orientation (.saveOrientation ho), exec_of_raises_orientation (.coord ho),
      exec_of_raises_format (.decpx hf), exec_of_raises_format (.encpx hf)⟩
  case pixel =>
    rintro s t hf (h | h)
    · exact err_of_exec_decpx hf h
    · exact err_of_exec_encpx hf h
  case formatBad =>
    intro s ho hf
    exact ⟨exec_of_raises_format (.loadFormat ho hf), exec_of_raises_format (.saveFormat ho hf)⟩

end Sys2Proof.Proofs

/-! Decoding and encoding as inverses (R101 to R103, R109, R110): the rows of the opcode map, and what each format
does to the words of its row. -/

namespace Sys2Proof

open Sys2Proof.Claims

/-! ### The opcode map -/

/-- A row of the opcode map (R103): what `decodeCommand` does with the words of an operation code. The commands of
format Z are known by their words. -/
inductive OpcodeRow (w : Word) : BitVec 4 → Except DecodeReject Instr → Prop
  | formatZ {c : BitVec 4} (i : Instr) (hc : c.toNat = 0 ∨ 6 ≤ c.toNat ∧ c.toNat ≤ 14)
      (hword : encode i = c ++ 0#28) (hne : ∀ v, i ≠ .illegal v) : OpcodeRow w c (decodeZ w i)
  | formatC : OpcodeRow w 1#4 (decodeC w)
  | formatD : OpcodeRow w 2#4 (decodeD w)
  | formatI : OpcodeRow w 3#4 (decodeI w)
  | setclo : OpcodeRow w 4#4 (decodeH w .setclo)
  | setchi : OpcodeRow w 5#4 (decodeH w .setchi)
  | reserved : OpcodeRow w 15#4 (.error .reservedOpcode)

/-- The map has a row for every code (R103, R110). -/
theorem decodeCommand_row (w : Word) : OpcodeRow w (opField w) (decodeCommand w) := by
  have hlt : (opField w).toNat < 16 := (opField w).isLt
  have code (k : Nat) (hk : (opField w).toNat = k) : opField w = BitVec.ofNat 4 k := by
    rw [← hk, BitVec.ofNat_toNat, BitVec.setWidth_eq]
  unfold decodeCommand
  split
  case h_2 h => rw [code _ h]; exact .formatC
  case h_3 h => rw [code _ h]; exact .formatD
  case h_4 h => rw [code _ h]; exact .formatI
  case h_5 h => rw [code _ h]; exact .setclo
  case h_6 h => rw [code _ h]; exact .setchi
  case h_16 =>
    have h15 : (opField w).toNat = 15 := by simp only [imp_false] at *; omega
    rw [code _ h15]
    exact .reserved
  -- The other rows are those of format Z.
  all_goals
    rename_i h
    rw [code _ h]
    exact .formatZ _ (by decide) (by decide) nofun

/-! ### The words that a format accepts -/

/-- A word with nothing but its code, as format Z has them (R102). -/
theorem opField_append_zero {w : Word} (h : w.extractLsb' 0 28 = 0#28) : opField w ++ 0#28 = w := by
  rw [← h]
  exact opField_append_operand w

/-- A word is its code and the fields of format C, reserved bits first (R102). -/
theorem opField_append_formatC (w : Word) :
    opField w ++ (w.extractLsb' 9 19 ++ w.extractLsb' 8 1 ++ w.extractLsb' 4 4 ++ w.extractLsb' 0 4) =
      w := by
  have hw : w.toNat < 2 ^ 32 := w.isLt
  apply BitVec.eq_of_toNat_eq
  simp only [Machine.toNat_append, opField, BitVec.extractLsb'_toNat, Nat.shiftRight_eq_div_pow]
  omega

/-- A word is its code and the fields of format D (R102). -/
theorem opField_append_formatD (w : Word) :
    opField w ++ (w.extractLsb' 14 14 ++ w.extractLsb' 0 14) = w := by
  have hw : w.toNat < 2 ^ 32 := w.isLt
  apply BitVec.eq_of_toNat_eq
  simp only [Machine.toNat_append, opField, BitVec.extractLsb'_toNat, Nat.shiftRight_eq_div_pow]
  omega

/-- A word is its code and the fields of format H, reserved bits first (R102). -/
theorem opField_append_formatH (w : Word) :
    opField w ++ (w.extractLsb' 16 12 ++ w.extractLsb' 0 16) = w := by
  have hw : w.toNat < 2 ^ 32 := w.isLt
  apply BitVec.eq_of_toNat_eq
  simp only [Machine.toNat_append, opField, BitVec.extractLsb'_toNat, Nat.shiftRight_eq_div_pow]
  omega

/-! ### Accepted and illegal words -/

/-- A word that R109 calls illegal. -/
abbrev namesNoCommand (w : Word) : Prop := w.extractLsb' 28 4 = 0xF#4 ∨ reservedBitSet w

/-- A word names the one command whose word it is, or R109 calls it illegal. -/
inductive WordCase (w : Word) : Except DecodeReject Instr → Prop
  | command (i : Instr) (hword : encode i = w) (hne : ∀ v, i ≠ .illegal v)
      (hlegal : ¬ namesNoCommand w) : WordCase w (.ok i)
  | illegal (r : DecodeReject) (h : namesNoCommand w) : WordCase w (.error r)

/-- Each format accepts exactly the words without a reserved bit (R102, R109). -/
theorem decodeCommand_case (w : Word) : WordCase w (decodeCommand w) := by
  have hrow := decodeCommand_row w
  generalize hc : opField w = c at hrow
  have hcode : w.extractLsb' 28 4 = c := hc
  generalize decodeCommand w = r at hrow
  cases hrow with
  | formatZ i hz hword hne =>
    by_cases hres : w.extractLsb' 0 28 = 0#28
    · rw [decodeZ, if_pos hres]
      refine .command i ?_ hne ?_
      · rw [hword, ← hc, opField_append_zero hres]
      · rw [namesNoCommand, reservedBitSet, hcode]
        rintro (rfl | ⟨-, hset⟩ | ⟨h1, -⟩ | ⟨h45, -⟩)
        · exact absurd hz (by decide)
        · exact hset hres
        · omega
        · omega
    · rw [decodeZ, if_neg hres]
      exact .illegal _ (.inr (.inl ⟨by rwa [hcode], hres⟩))
  | formatC =>
    by_cases hres : w.extractLsb' 9 19 = 0#19
    · rw [decodeC, if_pos hres]
      refine .command _ ?_ nofun ?_
      · rw [encode, ← hres, ← hc, opField_append_formatC]
      · simp [namesNoCommand, reservedBitSet, hcode, hres]
    · rw [decodeC, if_neg hres]
      exact .illegal _ (.inr (.inr (.inl ⟨by rw [hcode]; rfl, hres⟩)))
  | formatD =>
    refine .command _ ?_ nofun ?_
    · rw [encode, ← hc, opField_append_formatD]
    · simp [namesNoCommand, reservedBitSet, hcode]
  | formatI =>
    refine .command _ ?_ nofun ?_
    · rw [encode, ← hc, opField_append_operand]
    · simp [namesNoCommand, reservedBitSet, hcode]
  | setclo | setchi =>
    by_cases hres : w.extractLsb' 16 12 = 0#12
    · rw [decodeH, if_pos hres]
      refine .command _ ?_ nofun ?_
      · rw [encode, ← hres, ← hc, opField_append_formatH]
      · simp [namesNoCommand, reservedBitSet, hcode, hres]
    · rw [decodeH, if_neg hres]
      exact .illegal _ (.inr (.inr (.inr ⟨by rw [hcode]; decide, hres⟩)))
  | reserved => exact .illegal _ (.inl hcode)

/-- A word meets no bit of a run of ones when the field under the run is 0. -/
theorem and_mask_eq_zero (w : Word) (k n : Nat) (h : k + n ≤ 32) :
    w &&& ((BitVec.allOnes n).setWidth 32 <<< k) = 0#32 ↔ w.extractLsb' k n = 0#n := by
  constructor
  · intro hmask
    ext i hi
    have hbit := congrArg (·.getLsbD (k + i)) hmask
    simpa [hi, show k + i < 32 by omega] using hbit
  · intro hfield
    ext i hi
    by_cases hin : k ≤ i ∧ i - k < n
    case pos =>
      have hbit := congrArg (·.getLsbD (i - k)) hfield
      have hbit' : w[i] = false := by simpa [hin, hi] using hbit
      simp [hbit']
    case neg =>
      have houtside : ((BitVec.allOnes n).setWidth 32 <<< k)[i] = false := by simp; omega
      simp [houtside]

/-- The mask of an operation code selects the reserved bits of its format (R102). -/
theorem and_reservedBits_ne_zero (w : Word) {c : Nat} (hc : c < 15) :
    w &&& reservedBits c ≠ 0#32 ↔
      ((c = 0 ∨ 6 ≤ c ∧ c ≤ 14) ∧ w.extractLsb' 0 28 ≠ 0#28) ∨
        (c = 1 ∧ w.extractLsb' 9 19 ≠ 0#19) ∨ ((c = 4 ∨ c = 5) ∧ w.extractLsb' 16 12 ≠ 0#12) := by
  have formatZ : w &&& 0x0FFFFFFF#32 = 0#32 ↔ _ := and_mask_eq_zero w 0 28 (by decide)
  have formatC : w &&& 0x0FFFFE00#32 = 0#32 ↔ _ := and_mask_eq_zero w 9 19 (by decide)
  have formatH : w &&& 0x0FFF0000#32 = 0#32 ↔ _ := and_mask_eq_zero w 16 12 (by decide)
  rw [← formatZ.ne, ← formatC.ne, ← formatH.ne]
  interval_cases c <;> simp [reservedBits]

/-- The model's check of a word is R109's. -/
theorem illegalWord_iff (w : Word) : illegalWord w = true ↔ namesNoCommand w := by
  have hlt : (opField w).toNat < 16 := (opField w).isLt
  have hshift : (w >>> 28).toNat = (opField w).toNat := by
    rw [opField, BitVec.extractLsb'_toNat, BitVec.toNat_ushiftRight]
    have hw : w.toNat < 2 ^ 32 := w.isLt
    omega
  have hF : w.extractLsb' 28 4 = 0xF#4 ↔ (opField w).toNat = 15 := BitVec.toNat_inj.symm
  rw [illegalWord, hshift, namesNoCommand, hF]
  by_cases h15 : (opField w).toNat = 15
  · simp [h15]
  · have hmask : w &&& reservedBits (opField w).toNat ≠ 0#32 ↔ reservedBitSet w :=
      and_reservedBits_ne_zero w (by omega)
    simpa [h15] using hmask

/-- What a word decodes to (R110): the command whose word it is, or the illegal command, which carries it. -/
theorem decode_case (w : Word) :
    (encode (decode w) = w ∧ (∀ v, decode w ≠ .illegal v) ∧ ¬ namesNoCommand w) ∨
      (decode w = .illegal w ∧ namesNoCommand w) := by
  have hcase := decodeCommand_case w
  unfold decode
  generalize decodeCommand w = r at hcase
  cases hcase with
  | command i hword hne hlegal => exact .inl ⟨hword, hne, hlegal⟩
  | illegal r h => exact .inr ⟨rfl, h⟩

/-- A word that R109 calls illegal is the illegal command. -/
theorem decode_of_namesNoCommand {w : Word} (h : namesNoCommand w) : decode w = .illegal w := by
  rcases decode_case w with ⟨-, -, hlegal⟩ | ⟨hill, -⟩
  · exact absurd h hlegal
  · exact hill

theorem wf_of_ne_illegal {i : Instr} (h : ∀ v, i ≠ .illegal v) : i.wf = true := by
  cases i with
  | illegal w => exact absurd rfl (h w)
  | _ => rfl

end Sys2Proof

namespace Sys2Proof.Proofs

open Sys2Proof.Claims

/-- Settles O1: each command's word has the code of its row and its operands in the row's format; an illegal word
is its own. -/
theorem decodeOfEncodeIsTheCommand : Obligations.DecodeOfEncodeIsTheCommand := by
  unfold Obligations.DecodeOfEncodeIsTheCommand
  intro i hwf
  cases i with
  | cfg f o p => exact decode_cfg_word f o p
  | dim wm1 hm1 => exact decode_dim_word wm1 hm1
  | setidx n => exact decode_setidx_word n
  | setclo h => exact decode_setclo_word h
  | setchi h => exact decode_setchi_word h
  | illegal w => exact decode_of_namesNoCommand ((illegalWord_iff w).mp hwf)
  | nop | rstin | rstout | decpx | encpx | coord | rdpix | wrpix | load | save => decide

/-- Settles O2: an accepted word is the word of its command, and a rejected one is carried by the illegal command,
which is well formed because R109 calls the word illegal. -/
theorem everyWordIsTheWordOfItsCommand : Obligations.EveryWordIsTheWordOfItsCommand := by
  unfold Obligations.EveryWordIsTheWordOfItsCommand
  intro w
  rcases decode_case w with ⟨hword, hne, -⟩ | ⟨hill, hnames⟩
  · exact ⟨wf_of_ne_illegal hne, hword⟩
  · rw [hill]
    exact ⟨(illegalWord_iff w).mpr hnames, rfl⟩

/-- Settles O4: each word is evaluated. -/
theorem specWordsDecode : Obligations.SpecWordsDecode := by
  unfold Obligations.SpecWordsDecode
  decide

end Sys2Proof.Proofs

/-! One step of the port (R80, R85, R100): what it does with each interaction, on an idle block, on a busy one and
on a halted one. -/

namespace Sys2Proof.Machine

open Sys2Proof.Claims

theorem halted_eq_false_iff (s : State) : s.halted = false ↔ s.err = 0#2 := by
  simp [State.halted]

/-- Writing bit 0 of a register, `BUSY` in STATUS (R29). -/
theorem withBit_zero : ∀ v : BitVec 8,
    withBit v 0 true = v ||| 0x01#8 ∧ withBit v 0 false = v &&& 0xFE#8 := by decide

/-- The state in which an accepted command starts, and the one it leaves when it completes (R29). -/
theorem accept_eq (s : State) : s.accept = { done s none with status := s.status ||| 0x01#8 } := by
  obtain ⟨hset, -⟩ := withBit_zero s.status
  rw [← hset]
  rfl

theorem complete_eq (s : State) : s.complete = { s with status := s.status &&& 0xFE#8 } := by
  obtain ⟨-, hclear⟩ := withBit_zero s.status
  rw [← hclear]
  rfl

/-- A ready block runs the command of the word it is offered (R100). -/
theorem step_command_of_ready {s : State} {w : Word} (hs : offers s (.command w)) (hr : ready s) :
    step s = andThen (exec (decode w) s.accept) fun t => .next t.complete := by
  obtain ⟨hb, he⟩ := hr
  have hh := (halted_eq_false_iff s).mpr he
  rw [step_eq_interact hs, interact, submit, hb, hh]
  rfl

/-- A halted block takes a word and ignores it (R304). -/
theorem step_command_of_halted {s : State} {w : Word} (hs : offers s (.command w))
    (hb : s.busy = false) (he : s.err ≠ 0#2) : step s = .next (done s none) := by
  have hh : s.halted = true := by simp [State.halted, he]
  rw [step_eq_interact hs, interact, submit, hb, hh]
  rfl

/-- The accesses of the host that are no command, on an idle block (R80, R341). -/
theorem step_readRegister_of_idle {s : State} {n : Nat} (hs : offers s (.readRegister n))
    (hb : s.busy = false) : step s = .next (done s (some (registerValue s n))) := by
  rw [step_eq_interact hs]
  exact whenIdle_of_idle _ hb

theorem step_readTexin_of_idle {s : State} {a : BitVec 32} (hs : offers s (.readTexin a))
    (hb : s.busy = false) : step s = .next (done s (some ((texRead s a.toNat).setWidth 32))) := by
  rw [step_eq_interact hs]
  exact whenIdle_of_idle _ hb

theorem step_readPix_of_idle {s : State} {a : BitVec 28} (hs : offers s (.readPix a))
    (hb : s.busy = false) : step s = .next (done s (some (pixAt s a.toNat))) := by
  rw [step_eq_interact hs]
  exact whenIdle_of_idle _ hb

theorem step_writeTexin_of_idle {s : State} {a : BitVec 32} {b : Byte} (hs : offers s (.writeTexin a b))
    (hb : s.busy = false) : step s = .next (done (s.setTexin (s.texin.write a.toNat b)) none) := by
  rw [step_eq_interact hs]
  exact whenIdle_of_idle _ hb

theorem step_writePix_of_idle {s : State} {a : BitVec 28} {v : Word} (hs : offers s (.writePix a v))
    (hb : s.busy = false) : step s = .next (done (s.setPix (s.pix.write a.toNat v)) none) := by
  rw [step_eq_interact hs]
  exact whenIdle_of_idle _ hb

theorem step_writeInLen_of_idle {s : State} {v : Word} (hs : offers s (.writeRegister 12 v))
    (hb : s.busy = false) : step s = .next { done s none with inLen := v } := by
  rw [step_writeRegister_of_idle hs hb]
  rfl

/-- A listed byte of TEXOUT is given back (R80). -/
theorem readTexout_of_listed {s : State} {a : Nat} {b : Byte} (ha : a < s.outLen.toNat)
    (hread : s.texout.read? a = some b) : readTexout a s = .next (done s (some (b.setWidth 32))) := by
  rw [readTexout, if_pos ha, hread]
  rfl

/-- If a read of TEXOUT answers a next state, it gives back a byte and changes nothing else (R80). -/
theorem exists_of_readTexout_eq_next {s t : State} {a : Nat} (h : readTexout a s = .next t) :
    ∃ v, t = done s (some v) := by
  unfold readTexout at h
  split at h
  · split at h
    · cases h
      exact ⟨_, rfl⟩
    · cases h
  · cases h

/-- If a register write answers a next state, it wrote `IN_LEN` (R81, R82). -/
theorem writeRegister_eq_next {s t : State} {n : Nat} {v : Word} (h : writeRegister n v s = .next t) :
    t = { done s none with inLen := v } := by
  unfold writeRegister at h
  split at h
  · cases h
    rfl
  · cases h

/-- While a command runs the host waits with its words, and everything else is refused (R100, R341). -/
theorem step_command_of_busy {s : State} {w : Word} (hs : offers s (.command w)) (hb : s.busy = true) :
    step s = .next s := by
  rw [step_eq_interact hs, interact, submit, if_pos hb]

theorem step_access_of_busy {s : State} {h : Interaction} (hs : offers s h) (hb : s.busy = true)
    (hne : ∀ w, h ≠ .command w) : step s = .refused .hostWhileBusy := by
  rw [step_eq_interact hs]
  cases h with
  | command w => exact absurd rfl (hne w)
  | _ => exact if_pos hb

/-- An address that a memory lists reads a value. -/
theorem exists_read?_of_mem_addresses {width : Nat} {m : Memory width} {a : Nat}
    (h : a ∈ m.addresses) : ∃ v, m.read? a = some v := by
  induction m with
  | nil => cases h
  | cons p rest ih =>
    obtain ⟨b, v⟩ := p
    rw [Memory.read?]
    split
    case isTrue => exact ⟨v, rfl⟩
    case isFalse hne =>
      rw [Memory.addresses, List.map_cons, List.mem_cons] at h
      exact ih (h.resolve_left hne)

end Sys2Proof.Machine

namespace Sys2Proof.Proofs

open Sys2Proof.Machine Sys2Proof.Claims

/-- Settles O3: the port's step is the step of a decoded command, and `failed` with `BUSY` set and then cleared is
`failed`. -/
theorem illegalWordsRaiseIllegalCommand : Obligations.IllegalWordsRaiseIllegalCommand := by
  unfold Obligations.IllegalWordsRaiseIllegalCommand
  refine ⟨?decodes, fun w s => exec_of_raises_illegal (.illegal w), ?steps⟩
  case decodes =>
    intro w v
    constructor
    · intro h
      rcases decode_case w with ⟨-, hne, -⟩ | ⟨hill, hnames⟩
      · exact absurd h (hne v)
      · rw [hill, Instr.illegal.injEq] at h
        exact ⟨h.symm, hnames⟩
    · rintro ⟨rfl, hnames⟩
      exact decode_of_namesNoCommand hnames
  case steps =>
    intro w s hs hr hnames
    -- `BUSY` is clear before, set inside and cleared again; `ERR` is another field.
    have hstatus : ∀ v : BitVec 8, v.getLsbD 0 = false →
        (((v ||| 0x01#8) &&& 0xCF#8) ||| (3#8 <<< 4)) &&& 0xFE#8 = (v &&& 0xCF#8) ||| (3#8 <<< 4) := by
      decide
    rw [step_command_of_ready hs hr, decode_of_namesNoCommand hnames,
      exec_of_raises_illegal (.illegal w), andThen_next, complete_eq, accept_eq]
    simp only [failed, done, hstatus s.status hr.1]

/-- Settles O5: the port accepts the word, runs its command and clears `BUSY` when that completes. -/
theorem stepRunsTheDecodedCommand : Obligations.StepRunsTheDecodedCommand := by
  unfold Obligations.StepRunsTheDecodedCommand
  intro s w hs hr
  rw [step_command_of_ready hs hr, accept_eq]
  cases exec (decode w) { done s none with status := s.status ||| 0x01#8 } with
  | next t => rw [andThen_next, complete_eq]
  | fault f => rfl
  | refused r => rfl

/-- Settles O6: a halted block takes words without running them, and of the accesses only the reset input writes
STATUS. -/
theorem haltedBlockIgnoresEveryWord : Obligations.HaltedBlockIgnoresEveryWord := by
  unfold Obligations.HaltedBlockIgnoresEveryWord
  intro s hb he
  refine ⟨fun w hs => step_command_of_halted hs hb he, fun n hs => step_readRegister_of_idle hs hb,
    fun a hs => step_readTexin_of_idle hs hb, fun a hs => step_readPix_of_idle hs hb, ?texout, ?err⟩
  case texout =>
    intro a b hs ha hread
    rw [step_readTexout_of_idle hs hb, readTexout_of_listed ha hread]
  case err =>
    intro h t hs hstep
    cases h with
    | command w =>
      rw [step_command_of_halted hs hb he] at hstep
      cases hstep
      exact .inl rfl
    | readRegister n =>
      rw [step_readRegister_of_idle hs hb] at hstep
      cases hstep
      exact .inl rfl
    | writeRegister n v =>
      rw [step_writeRegister_of_idle hs hb] at hstep
      rw [writeRegister_eq_next hstep]
      exact .inl rfl
    | readTexin a =>
      rw [step_readTexin_of_idle hs hb] at hstep
      cases hstep
      exact .inl rfl
    | writeTexin a b =>
      rw [step_writeTexin_of_idle hs hb] at hstep
      cases hstep
      exact .inl rfl
    | readTexout a =>
      rw [step_readTexout_of_idle hs hb] at hstep
      obtain ⟨v, rfl⟩ := exists_of_readTexout_eq_next hstep
      exact .inl rfl
    | writeTexout a b =>
      rw [step_writeTexout_of_idle hs hb] at hstep
      cases hstep
    | readPix a =>
      rw [step_readPix_of_idle hs hb] at hstep
      cases hstep
      exact .inl rfl
    | writePix a v =>
      rw [step_writePix_of_idle hs hb] at hstep
      cases hstep
      exact .inl rfl
    | reset => exact .inr rfl

/-- Settles O7: past the end of the script the port does nothing. -/
theorem idleBlockKeepsItsState : Obligations.IdleBlockKeepsItsState := by
  unfold Obligations.IdleBlockKeepsItsState
  intro s hs
  simp only [step, portStep, hs]

/-- Settles O8: a busy block lets a word wait and refuses the rest. -/
theorem busyBlockTakesNothing : Obligations.BusyBlockTakesNothing := by
  unfold Obligations.BusyBlockTakesNothing
  intro s hb
  exact ⟨fun w hs => step_command_of_busy hs hb, fun h hs hne => step_access_of_busy hs hb hne⟩

/-- Settles O10: the state after the reset input, field by field. -/
theorem resetKeepsTheHostsMemories : Obligations.ResetKeepsTheHostsMemories := by
  unfold Obligations.ResetKeepsTheHostsMemories
  intro s hs hb
  exact ⟨_, step_reset_of_idle hs hb, rfl, rfl, rfl, rfl, (by decide : State.reset.err = 0#2), rfl, rfl⟩

/-- Settles O11: each read is `done` with its value; a read that a busy block refuses has no next state. -/
theorem hostReadsHaveNoSideEffect : Obligations.HostReadsHaveNoSideEffect := by
  unfold Obligations.HostReadsHaveNoSideEffect
  refine ⟨fun s n => step_readRegister_of_idle, ?unknown, ?reads⟩
  case unknown =>
    intro s n hn
    obtain ⟨k, rfl⟩ := Nat.exists_eq_add_of_le' hn
    rfl
  case reads =>
    intro s t h hs hread hstep
    cases hb : s.busy
    case true =>
      have hne : ∀ w, h ≠ .command w := by
        rintro w rfl
        simp at hread
      rw [step_access_of_busy hs hb hne] at hstep
      cases hstep
    case false =>
      rcases hread with ⟨n, rfl⟩ | ⟨a, rfl⟩ | ⟨a, rfl⟩ | ⟨a, rfl⟩
      · rw [step_readRegister_of_idle hs hb] at hstep
        cases hstep
        exact ⟨_, rfl⟩
      · rw [step_readTexin_of_idle hs hb] at hstep
        cases hstep
        exact ⟨_, rfl⟩
      · rw [step_readTexout_of_idle hs hb] at hstep
        exact exists_of_readTexout_eq_next hstep
      · rw [step_readPix_of_idle hs hb] at hstep
        cases hstep
        exact ⟨_, rfl⟩

/-- Settles O14: read after write in the sparse memories, and the bytes below `OUT_LEN` are listed (R33). -/
theorem hostWritesAndReadsMemories : Obligations.HostWritesAndReadsMemories := by
  unfold Obligations.HostWritesAndReadsMemories
  intro s hb
  refine ⟨?writeTexin, ?writePix, fun v hs => step_writeInLen_of_idle hs hb,
    fun a hs => step_readTexin_of_idle hs hb, fun a hs => step_readPix_of_idle hs hb, ?readTexout⟩
  case writeTexin =>
    intro a b hs
    refine ⟨_, step_writeTexin_of_idle hs hb, rfl, ?same, fun k hk => ?other⟩
    case same => exact congrArg (Option.getD · _) (Memory.read?_write_same _ _ _)
    case other => exact congrArg (Option.getD · _) (Memory.read?_write_other _ hk _)
  case writePix =>
    intro a v hs
    refine ⟨_, step_writePix_of_idle hs hb, rfl, ?same, fun k hk => ?other⟩
    case same => exact congrArg (Option.getD · _) (Memory.read?_write_same _ _ _)
    case other => exact congrArg (Option.getD · _) (Memory.read?_write_other _ hk _)
  case readTexout =>
    intro a hs hmem ha
    obtain ⟨-, -, hout⟩ := hmem
    obtain ⟨b, hread⟩ := exists_read?_of_mem_addresses (m := s.texout) (a := a.toNat)
      (by rw [hout]; exact List.mem_range.mpr ha)
    exact ⟨b, hread, (step_readTexout_of_idle hs hb).trans (readTexout_of_listed ha hread)⟩

end Sys2Proof.Proofs

/-! The numeric laws (R211, R235, R237): a field of a channel, and the channel of a field. -/

namespace Sys2Proof.Machine

/-- Expansion as a number: no product wraps (R235). -/
theorem expand1_toNat (v : BitVec 1) : (expand1 v).toNat = v.toNat * 255 := by
  have hv : v.toNat < 2 := v.isLt
  rw [expand1, BitVec.toNat_ofNat]
  omega

theorem expand4_toNat (v : Nibble) : (expand4 v).toNat = v.toNat * 17 := by
  have hv : v.toNat < 16 := v.isLt
  rw [expand4, BitVec.toNat_ofNat]
  omega

theorem expand5_toNat (v : BitVec 5) : (expand5 v).toNat = v.toNat * 33 / 4 := by
  have hv : v.toNat < 32 := v.isLt
  rw [expand5, BitVec.toNat_ofNat]
  omega

theorem expand6_toNat (v : BitVec 6) : (expand6 v).toNat = v.toNat * 65 / 16 := by
  have hv : v.toNat < 64 := v.isLt
  rw [expand6, BitVec.toNat_ofNat]
  omega

end Sys2Proof.Machine

namespace Sys2Proof.Proofs

open Sys2Proof.Machine

/-- Settles O52: each entry is evaluated. -/
theorem expansionTables : Obligations.ExpansionTables := by
  unfold Obligations.ExpansionTables
  decide

/-- Settles O54: narrowing is a quotient and expansion a scaled quotient, so the law is arithmetic. -/
theorem narrowThenExpandIsBounded : Obligations.NarrowThenExpandIsBounded := by
  unfold Obligations.NarrowThenExpandIsBounded
  intro c
  have hc : c.toNat < 256 := c.isLt
  rw [expand5_toNat, expand6_toNat, expand4_toNat, expand1_toNat, narrow5_toNat, narrow6_toNat,
    narrow4_toNat, narrow1_toNat]
  omega

/-- Settles O55: each register and memory of the reset state is evaluated. -/
theorem resetStateIsLegal : Obligations.ResetStateIsLegal := by
  unfold Obligations.ResetStateIsLegal
  decide

end Sys2Proof.Proofs

/-! The generator as a scan of the padded canvas, tile by tile (R243 to R256): the column and the row that an index
reaches, before the orientation places them on the axes. -/

namespace Sys2Proof.Machine

open Sys2Proof.Claims

/-! ### Strides -/

theorem le_strideOf (pad : BitVec 1) (d : Nat) : d ≤ strideOf pad d := by
  unfold strideOf
  split
  · exact (le_ceil8 d).trans (le_npow2 _)
  · exact le_ceil8 d

/-- Every stride of a dimension that is not 0 is a multiple of 8 (R241). -/
theorem eight_dvd_strideOf (pad : BitVec 1) {d : Nat} (hd : 0 < d) : 8 ∣ strideOf pad d := by
  unfold strideOf
  split
  · rw [npow2_eq_two_pow]
    have h8 : 2 ^ 2 < ceil8 d := by
      have hle := le_ceil8 d
      have hdvd := dvd_ceil8 d
      omega
    exact Nat.pow_dvd_pow 2 ((Nat.lt_clog_iff_pow_lt (by decide)).mpr h8)
  · exact dvd_ceil8 d

/-- The axis along the tile rows: the canvas has this many scan rows (R243, R244). -/
def scanRows (s : State) (o : Orientation) : Nat :=
  match o with
  | .default | .transposeTile => s.sh
  | .rotate90 | .transpose => s.sw

theorem stride_mul_scanRows (s : State) (o : Orientation) : stride s o * scanRows s o = s.sw * s.sh := by
  cases o with
  | default | transposeTile => rfl
  | rotate90 | transpose => exact Nat.mul_comm _ _

/-- Both axes of the canvas are whole tiles, and not empty (R24, R241). -/
theorem canvas_tiles {s : State} (hdims : s.legalDims) (o : Orientation) :
    ∃ cols rows, 0 < cols ∧ stride s o = 8 * cols ∧ scanRows s o = 8 * rows := by
  obtain ⟨hw, -, hh, -⟩ := hdims
  have hsw : s.width.toNat ≤ s.sw := le_strideOf s.pad _
  have hsh : s.height.toNat ≤ s.sh := le_strideOf s.pad _
  obtain ⟨w, hw8⟩ : 8 ∣ s.sw := eight_dvd_strideOf s.pad hw
  obtain ⟨h, hh8⟩ : 8 ∣ s.sh := eight_dvd_strideOf s.pad hh
  cases o with
  | default | transposeTile => exact ⟨w, h, by omega, hw8, hh8⟩
  | rotate90 | transpose => exact ⟨h, w, by omega, hh8, hw8⟩

/-! ### Inside a tile -/

/-- The column inside the tile: the transposed tile swaps the two (R246). -/
def inTileColumn (o : Orientation) (i : Nat) : Nat :=
  match o with
  | .transposeTile => inTileY i
  | _ => inTileX i

/-- The row inside the tile (R246). -/
def inTileRow (o : Orientation) (i : Nat) : Nat :=
  match o with
  | .transposeTile => inTileX i
  | _ => inTileY i

theorem inTileColumn_lt (o : Orientation) (i : Nat) : inTileColumn o i < 8 := by
  cases o with
  | transposeTile => exact inTileY_lt i
  | default | rotate90 | transpose => exact inTileX_lt i

theorem inTileRow_lt (o : Orientation) (i : Nat) : inTileRow o i < 8 := by
  cases o with
  | transposeTile => exact inTileX_lt i
  | default | rotate90 | transpose => exact inTileY_lt i

/-- The index bits that a place in the tile comes from, together again (R245). -/
def tileIndex (o : Orientation) (a b : Nat) : Nat :=
  match o with
  | .transposeTile => bit b 0 + 2 * bit a 0 + 4 * bit b 1 + 8 * bit a 1 + 16 * bit b 2 + 32 * bit a 2
  | _ => bit a 0 + 2 * bit b 0 + 4 * bit a 1 + 8 * bit b 1 + 16 * bit a 2 + 32 * bit b 2

theorem tileIndex_lt (o : Orientation) (a b : Nat) : tileIndex o a b < 64 := by
  cases o <;> simp only [tileIndex, bit] <;> omega

/-- The place in the tile depends on the low 6 index bits only (R245). -/
theorem inTile_mod (o : Orientation) (i : Nat) :
    inTileColumn o (i % 64) = inTileColumn o i ∧ inTileRow o (i % 64) = inTileRow o i := by
  have hx : inTileX (i % 64) = inTileX i := by simp only [inTileX, bit]; omega
  have hy : inTileY (i % 64) = inTileY i := by simp only [inTileY, bit]; omega
  cases o with
  | transposeTile => exact ⟨hy, hx⟩
  | default | rotate90 | transpose => exact ⟨hx, hy⟩

/-- The place of an index tells its low 6 bits. -/
theorem tileIndex_inTile (o : Orientation) (i : Nat) :
    tileIndex o (inTileColumn o i) (inTileRow o i) = i % 64 := by
  have htile : ∀ r < 64, tileIndex o (inTileColumn o r) (inTileRow o r) = r := by cases o <;> decide
  obtain ⟨hcol, hrow⟩ := inTile_mod o i
  rw [← hcol, ← hrow, htile _ (Nat.mod_lt _ (by decide))]

/-- The low 6 bits tell the place, which the bits above do not change. -/
theorem inTile_tileIndex (o : Orientation) (q : Nat) {a b : Nat} (ha : a < 8) (hb : b < 8) :
    inTileColumn o (64 * q + tileIndex o a b) = a ∧ inTileRow o (64 * q + tileIndex o a b) = b := by
  have htile : ∀ a < 8, ∀ b < 8,
      inTileColumn o (tileIndex o a b) = a ∧ inTileRow o (tileIndex o a b) = b := by
    cases o <;> decide
  obtain ⟨hcol, hrow⟩ := inTile_mod o (64 * q + tileIndex o a b)
  rw [← hcol, ← hrow, Nat.mul_add_mod, Nat.mod_eq_of_lt (tileIndex_lt o a b)]
  exact htile a ha b hb

/-! ### The scan -/

/-- The column of the canvas that an index reaches, with `cols` tiles in a row of tiles (R244). -/
def scanColumn (o : Orientation) (cols i : Nat) : Nat := i / 64 % cols * 8 + inTileColumn o i

/-- The row of the canvas that an index reaches (R244). -/
def scanRow (o : Orientation) (cols i : Nat) : Nat := i / 64 / cols * 8 + inTileRow o i

theorem scanColumn_lt (o : Orientation) {cols : Nat} (hcols : 0 < cols) (i : Nat) :
    scanColumn o cols i < 8 * cols := by
  have hcol := inTileColumn_lt o i
  have htile : i / 64 % cols < cols := Nat.mod_lt _ hcols
  unfold scanColumn
  omega

/-- The scan reaches row after row of tiles (R251, R253). -/
theorem scanRow_lt_iff (o : Orientation) {cols rows : Nat} (hcols : 0 < cols) (i : Nat) :
    scanRow o cols i < 8 * rows ↔ i < 8 * cols * (8 * rows) := by
  have hrow := inTileRow_lt o i
  have htile : i / 64 / cols < rows ↔ i < 8 * cols * (8 * rows) := by
    rw [Nat.div_lt_iff_lt_mul hcols, Nat.div_lt_iff_lt_mul (by decide)]
    have hlen : rows * cols * 64 = 8 * cols * (8 * rows) := by ring
    rw [hlen]
  rw [← htile, scanRow]
  omega

/-- The index that reaches a column and a row. -/
def scanIndex (o : Orientation) (cols a b : Nat) : Nat :=
  64 * (cols * (b / 8) + a / 8) + tileIndex o (a % 8) (b % 8)

/-- A column and a row tell the index that reached them. -/
theorem scanIndex_scan (o : Orientation) (cols i : Nat) :
    scanIndex o cols (scanColumn o cols i) (scanRow o cols i) = i := by
  have hcol := inTileColumn_lt o i
  have hrow := inTileRow_lt o i
  have hcolDiv : scanColumn o cols i / 8 = i / 64 % cols := by unfold scanColumn; omega
  have hcolMod : scanColumn o cols i % 8 = inTileColumn o i := by unfold scanColumn; omega
  have hrowDiv : scanRow o cols i / 8 = i / 64 / cols := by unfold scanRow; omega
  have hrowMod : scanRow o cols i % 8 = inTileRow o i := by unfold scanRow; omega
  rw [scanIndex, hcolDiv, hcolMod, hrowDiv, hrowMod, tileIndex_inTile, Nat.div_add_mod,
    Nat.div_add_mod]

/-- That index reaches them. -/
theorem scan_scanIndex (o : Orientation) {cols a b : Nat} (ha : a < 8 * cols) :
    scanColumn o cols (scanIndex o cols a b) = a ∧ scanRow o cols (scanIndex o cols a b) = b := by
  have hlt := tileIndex_lt o (a % 8) (b % 8)
  have hcols : a / 8 < cols := by omega
  obtain ⟨hcol, hrow⟩ := inTile_tileIndex o (cols * (b / 8) + a / 8) (Nat.mod_lt a (by decide : 0 < 8))
    (Nat.mod_lt b (by decide : 0 < 8))
  have htile : scanIndex o cols a b / 64 = cols * (b / 8) + a / 8 := by unfold scanIndex; omega
  have htileCol : (cols * (b / 8) + a / 8) % cols = a / 8 := by
    rw [Nat.mul_add_mod, Nat.mod_eq_of_lt hcols]
  have htileRow : (cols * (b / 8) + a / 8) / cols = b / 8 := by
    rw [Nat.mul_add_div (by omega), Nat.div_eq_of_lt hcols, Nat.add_zero]
  rw [scanColumn, scanRow, htile, htileCol, htileRow, scanIndex, hcol, hrow]
  omega

/-! ### The orientation -/

/-- The axes that an orientation puts a column and a row on, in a canvas whose rows hold `n` (R246). -/
def place (o : Orientation) (n : Nat) (ab : Nat × Nat) : Nat × Nat :=
  match o with
  | .default | .transposeTile => ab
  | .rotate90 => (ab.2, n - 1 - ab.1)
  | .transpose => (ab.2, ab.1)

/-- The column and the row that an orientation puts on a coordinate. -/
def unplace (o : Orientation) (n : Nat) (xy : Nat × Nat) : Nat × Nat :=
  match o with
  | .default | .transposeTile => xy
  | .rotate90 => (n - 1 - xy.2, xy.1)
  | .transpose => (xy.2, xy.1)

/-- The generator is the scan, placed on the axes (R247). -/
theorem coordinate_eq_place (s : State) (o : Orientation) (i : Nat) :
    coordinate s o i =
      place o (stride s o) (scanColumn o (stride s o / 8) i, scanRow o (stride s o / 8) i) := by
  cases o <;> rfl

/-- A column and a row of the canvas are placed inside it. -/
theorem place_lt (s : State) (o : Orientation) {ab : Nat × Nat} (ha : ab.1 < stride s o)
    (hb : ab.2 < scanRows s o) : (place o (stride s o) ab).1 < s.sw ∧ (place o (stride s o) ab).2 < s.sh := by
  cases o with
  | default | transposeTile => exact ⟨ha, hb⟩
  | rotate90 =>
    simp only [stride, scanRows] at ha hb
    simp only [place, stride]
    omega
  | transpose => exact ⟨hb, ha⟩

theorem unplace_lt (s : State) (o : Orientation) {xy : Nat × Nat} (hx : xy.1 < s.sw) (hy : xy.2 < s.sh) :
    (unplace o (stride s o) xy).1 < stride s o ∧ (unplace o (stride s o) xy).2 < scanRows s o := by
  cases o with
  | default | transposeTile => exact ⟨hx, hy⟩
  | rotate90 =>
    simp only [unplace, stride, scanRows]
    omega
  | transpose => exact ⟨hy, hx⟩

theorem unplace_place (o : Orientation) {n : Nat} {ab : Nat × Nat} (ha : ab.1 < n) :
    unplace o n (place o n ab) = ab := by
  cases o with
  | default | transposeTile | transpose => rfl
  | rotate90 => exact Prod.ext (by simp only [place, unplace]; omega) rfl

theorem place_unplace (s : State) (o : Orientation) {xy : Nat × Nat} (hy : xy.2 < s.sh) :
    place o (stride s o) (unplace o (stride s o) xy) = xy := by
  cases o with
  | default | transposeTile | transpose => rfl
  | rotate90 => exact Prod.ext rfl (by simp only [place, unplace, stride]; omega)

/-! ### The generator -/

/-- The indices below `N` are those that reach a row of the canvas; none leaves its columns (R251, R253). -/
theorem scan_lt {s : State} (hdims : s.legalDims) (o : Orientation) (i : Nat) :
    scanColumn o (stride s o / 8) i < stride s o ∧
      (scanRow o (stride s o / 8) i < scanRows s o ↔ i < s.sw * s.sh) := by
  obtain ⟨cols, rows, hcols, hstride, hrows⟩ := canvas_tiles hdims o
  have hdiv : stride s o / 8 = cols := by omega
  rw [← stride_mul_scanRows s o, hdiv, hstride, hrows]
  exact ⟨scanColumn_lt o hcols i, scanRow_lt_iff o hcols i⟩

/-- An index below `N` has a coordinate in the canvas (R251). -/
theorem coordinate_lt {s : State} (hdims : s.legalDims) (o : Orientation) {i : Nat}
    (hi : i < s.sw * s.sh) : (coordinate s o i).1 < s.sw ∧ (coordinate s o i).2 < s.sh := by
  obtain ⟨hcol, hrow⟩ := scan_lt hdims o i
  rw [coordinate_eq_place]
  exact place_lt s o hcol (hrow.mpr hi)

/-- No two indices have the same coordinate (R251). -/
theorem coordinate_inj {s : State} (hdims : s.legalDims) (o : Orientation) {i j : Nat}
    (h : coordinate s o i = coordinate s o j) : i = j := by
  have index (k : Nat) : scanIndex o (stride s o / 8) (unplace o (stride s o) (coordinate s o k)).1
      (unplace o (stride s o) (coordinate s o k)).2 = k := by
    obtain ⟨hcol, -⟩ := scan_lt hdims o k
    rw [coordinate_eq_place, unplace_place o hcol, scanIndex_scan]
  rw [← index i, h, index j]

/-- Every coordinate of the canvas has an index below `N` (R251). -/
theorem exists_coordinate_eq {s : State} (hdims : s.legalDims) (o : Orientation) {xy : Nat × Nat}
    (hx : xy.1 < s.sw) (hy : xy.2 < s.sh) : ∃ i, i < s.sw * s.sh ∧ coordinate s o i = xy := by
  obtain ⟨cols, -, -, hstride, -⟩ := canvas_tiles hdims o
  obtain ⟨ha, hb⟩ := unplace_lt s o hx hy
  obtain ⟨hcol, hrow⟩ := scan_scanIndex (cols := stride s o / 8) (b := (unplace o (stride s o) xy).2) o
    (show (unplace o (stride s o) xy).1 < _ by omega)
  refine ⟨_, (scan_lt hdims o _).2.mp (hrow.trans_lt hb), ?_⟩
  rw [coordinate_eq_place, hcol, hrow, place_unplace s o hy]

/-! ### Past the end of the canvas -/

/-- An index at or above `N` is past the canvas on the axis of the tile rows, and inside it on the other
(R253). -/
theorem coordinate_past_end {s : State} (hdims : s.legalDims) (o : Orientation) {i : Nat}
    (hi : s.sw * s.sh ≤ i) :
    match o with
    | .default | .transposeTile => s.sh ≤ (coordinate s o i).2 ∧ (coordinate s o i).1 < s.sw
    | .rotate90 | .transpose => s.sw ≤ (coordinate s o i).1 ∧ (coordinate s o i).2 < s.sh := by
  obtain ⟨hcol, hrow⟩ := scan_lt hdims o i
  have hpast : scanRows s o ≤ scanRow o (stride s o / 8) i := by
    rw [← Nat.not_lt, hrow, Nat.not_lt]
    exact hi
  rw [coordinate_eq_place]
  cases o with
  | default | transposeTile | transpose => exact ⟨hpast, hcol⟩
  | rotate90 =>
    refine ⟨hpast, ?_⟩
    simp only [stride] at hcol
    simp only [place, stride]
    omega

/-- So it is no pixel of the buffer, which lies inside the canvas (R253). -/
theorem not_inside_past_end {s : State} (hdims : s.legalDims) (o : Orientation) {i : Nat}
    (hi : s.sw * s.sh ≤ i) : ¬ inside s (coordinate s o i) := by
  have hsw : s.width.toNat ≤ s.sw := le_strideOf s.pad _
  have hsh : s.height.toNat ≤ s.sh := le_strideOf s.pad _
  have hpast := coordinate_past_end hdims o hi
  rw [inside]
  cases o <;> dsimp only at hpast <;> omega

/-! ### Squares of 16 indices -/

/-- The low 4 index bits move inside a square, the others choose it (R256). -/
theorem exists_square (o : Orientation) (cols m : Nat) : ∃ a b, ∀ k < 16,
    scanColumn o cols (16 * m + k) = 4 * a + inTileColumn o k ∧
      scanRow o cols (16 * m + k) = 4 * b + inTileRow o k := by
  -- The tile, and which of its four squares.
  refine ⟨2 * (m / 4 % cols) + inTileColumn o (16 * m) / 4, 2 * (m / 4 / cols) + inTileRow o (16 * m) / 4,
    fun k hk => ?_⟩
  have htile : (16 * m + k) / 64 = m / 4 := by omega
  have hplace : inTileColumn o (16 * m + k) = 4 * (inTileColumn o (16 * m) / 4) + inTileColumn o k ∧
      inTileRow o (16 * m + k) = 4 * (inTileRow o (16 * m) / 4) + inTileRow o k := by
    cases o <;> simp only [inTileColumn, inTileRow, inTileX, inTileY, bit] <;> omega
  rw [scanColumn, scanRow, htile, hplace.1, hplace.2]
  omega

/-- The 16 places of a square, as an orientation places them. -/
theorem square_places (o : Orientation) : ∀ x y, (x < 4 ∧ y < 4) ↔
    ∃ k, k < 16 ∧ place o 4 (inTileColumn o k, inTileRow o k) = (x, y) := by
  have hreached : ∀ x < 4, ∀ y < 4, ∃ k < 16, place o 4 (inTileColumn o k, inTileRow o k) = (x, y) := by
    cases o <;> decide
  have hinside : ∀ k < 16, (place o 4 (inTileColumn o k, inTileRow o k)).1 < 4 ∧
      (place o 4 (inTileColumn o k, inTileRow o k)).2 < 4 := by
    cases o <;> decide
  intro x y
  constructor
  · rintro ⟨hx, hy⟩
    exact hreached x hx y hy
  · rintro ⟨k, hk, hxy⟩
    simpa only [hxy] using hinside k hk

/-- Placing a square of the canvas places its corner, and the places in it on their own. -/
theorem place_square (o : Orientation) {cols a b : Nat} (ha : 4 * a < 8 * cols) :
    ∃ cx cy, ∀ c r, c < 4 →
      place o (8 * cols) (4 * a + c, 4 * b + r) =
        (4 * cx + (place o 4 (c, r)).1, 4 * cy + (place o 4 (c, r)).2) := by
  cases o with
  | default | transposeTile => exact ⟨a, b, fun c r _ => rfl⟩
  | transpose => exact ⟨b, a, fun c r _ => rfl⟩
  | rotate90 =>
    refine ⟨b, 2 * cols - 1 - a, fun c r hc => Prod.ext rfl ?_⟩
    simp only [place]
    omega

end Sys2Proof.Machine

namespace Sys2Proof.Proofs

open Sys2Proof.Machine Sys2Proof.Claims

/-- Settles O39: the scan reaches every column and row of the canvas once, and the orientation places them without
loss. -/
theorem generatorIsABijection : Obligations.GeneratorIsABijection := by
  unfold Obligations.GeneratorIsABijection
  intro s o hdims
  simp only [coordOf_eq_coordinate]
  refine ⟨fun i hi => coordinate_lt hdims o hi, fun x y hx hy => ?_⟩
  obtain ⟨i, hi, hxy⟩ := exists_coordinate_eq (xy := (x, y)) hdims o hx hy
  refine ⟨i, ⟨hi, hxy⟩, ?_⟩
  rintro j ⟨-, hj⟩
  exact coordinate_inj hdims o (hj.trans hxy.symm)

/-- Settles O40: past the last row of tiles the coordinate is outside, so `INB` is 0 and the store is discarded. -/
theorem indicesPastTheEndAreOutside : Obligations.IndicesPastTheEndAreOutside := by
  unfold Obligations.IndicesPastTheEndAreOutside
  refine ⟨?axis, ?commands⟩
  case axis =>
    intro s o i hdims hi
    have hpast := coordinate_past_end hdims o hi
    rw [coordOf_eq_coordinate]
    cases o <;> exact hpast
  case commands =>
    intro s o hdims ho hi
    have hout : ¬ inside s (coordOf s o s.idx.toNat) := by
      rw [coordOf_eq_coordinate]
      exact not_inside_past_end hdims o hi
    obtain ⟨hx, hy⟩ := coordOf_lt hdims o s.idx.isLt
    refine ⟨_, exec_coord ho, ?inb, ?store⟩
    case inb =>
      rw [withCoordinate, State.inb_withInb, ← Bool.not_eq_true, inBounds_iff_inside]
      exact hout
    case store =>
      have hxy : ((withCoordinate s (coordOf s o s.idx.toNat)).x.toNat,
          (withCoordinate s (coordOf s o s.idx.toNat)).y.toNat) = coordOf s o s.idx.toNat :=
        Prod.ext (toNat_ofNat_of_lt hx) (toNat_ofNat_of_lt hy)
      -- COORD leaves the dimensions.
      have hout' : ¬ inside (withCoordinate s (coordOf s o s.idx.toNat)) (coordOf s o s.idx.toNat) := hout
      rw [exec_wrpix, hxy, storePixel_of_not_inside hout']

/-- Settles O41: the scan moves inside one square, and the orientation places squares as squares. -/
theorem sixteenIndicesFillASquare : Obligations.SixteenIndicesFillASquare := by
  unfold Obligations.SixteenIndicesFillASquare
  intro s o m hdims
  obtain ⟨cols, -, -, hstride, -⟩ := canvas_tiles hdims o
  obtain ⟨a, b, hscan⟩ := exists_square o (stride s o / 8) m
  have ha : 4 * a < 8 * cols := by
    obtain ⟨hcol, -⟩ := scan_lt hdims o (16 * m + 0)
    rw [(hscan 0 (by decide)).1] at hcol
    omega
  obtain ⟨cx, cy, hplace⟩ := place_square (b := b) o ha
  have hcoord : ∀ k < 16, coordOf s o (16 * m + k) =
      (4 * cx + (place o 4 (inTileColumn o k, inTileRow o k)).1,
        4 * cy + (place o 4 (inTileColumn o k, inTileRow o k)).2) := by
    intro k hk
    have hlow : inTileColumn o k < 4 := by
      cases o <;> simp only [inTileColumn, inTileX, inTileY, bit] <;> omega
    obtain ⟨hcol, hrow⟩ := hscan k hk
    rw [coordOf_eq_coordinate, coordinate_eq_place, hcol, hrow, hstride, hplace _ _ hlow]
  refine ⟨cx, cy, fun x y => (square_places o x y).trans (exists_congr fun k => ?_)⟩
  refine and_congr_right fun hk => ?_
  rw [hcoord k hk, Prod.mk.injEq, Prod.ext_iff]
  omega

end Sys2Proof.Proofs

/-! What a completed command can change, said once for every command (R20, R60, R303). -/

namespace Sys2Proof.Machine

open Sys2Proof.Claims

/-- Two registers that agree outside bit 1 agree in each bit of STATUS but `EOS` (R29). -/
theorem status_of_and_eq {v w : BitVec 8} (h : v &&& 0xFD#8 = w &&& 0xFD#8) :
    v.getLsbD 0 = w.getLsbD 0 ∧ v.getLsbD 2 = w.getLsbD 2 ∧ v &&& 0xC8#8 = w &&& 0xC8#8 := by
  have bit {k : Nat} (hk : (0xFD#8).getLsbD k = true) : v.getLsbD k = w.getLsbD k := by
    simpa only [BitVec.getLsbD_and, hk, Bool.and_true] using congrArg (·.getLsbD k) h
  refine ⟨bit (by decide), bit (by decide), ?_⟩
  have hmask : (0xFD#8 : BitVec 8) &&& 0xC8#8 = 0xC8#8 := by decide
  rw [← hmask, ← BitVec.and_assoc, h, BitVec.and_assoc]

/-- The loop of LOAD keeps every bit of STATUS but `EOS` (R281). -/
theorem loadLoop_status_and {f : Format} {o : Orientation} {left i : Nat} {s t : State}
    (h : loadLoop f o left i s = .next t) : t.status &&& 0xFD#8 = s.status &&& 0xFD#8 := by
  induction left generalizing i s with
  | zero => cases h; rfl
  | succ left ih =>
    by_cases hin : hasInput f s = true
    case pos =>
      rw [loadLoop_of_hasInput hin] at h
      obtain ⟨u, hu, ht⟩ := andThen_eq_next.mp h
      obtain ⟨p, n, q, c, hd⟩ := decodePixel_frame f s
      have hs : u.status = s.status := by
        rcases storePixel_eq_next hu with ⟨-, -, rfl⟩ | ⟨-, rfl⟩ <;> simp [hd]
      rw [ih ht, hs]
    case neg =>
      rw [loadLoop_of_not_hasInput hin] at h
      cases h
      exact status_withEos_and s true

/-- What a command that completes leaves: an error raised, or its own registers and memories written. -/
inductive Effect (s : State) : Instr → State → Prop
  | raised {i : Instr} {e : ErrorKind} : Raises s i e → Effect s i (s.withErr (errorCode e))
  | nop : Effect s .nop s
  | cfg (f o : BitVec 4) (p : BitVec 1) : Effect s (.cfg f o p) (s.setConfig f o p)
  | dim (wm1 hm1 : BitVec 14) : Effect s (.dim wm1 hm1) (s.setDims (dimension wm1) (dimension hm1))
  | setidx (n : BitVec 28) : Effect s (.setidx n) (s.setIdx n)
  | setclo (h : BitVec 16) : Effect s (.setclo h) (s.setColor (withLowHalf s.color h))
  | setchi (h : BitVec 16) : Effect s (.setchi h) (s.setColor (withHighHalf s.color h))
  | rstin : Effect s .rstin (rewindInput s)
  | rstout : Effect s .rstout (emptyOutput s)
  | decpx {u : State} (c : Color) : InputFrame s u → Effect s .decpx (u.setColor c)
  | decpxAtEnd : Effect s .decpx (s.withEos true)
  | encpx {t : State} : OutputFrame s t → Effect s .encpx t
  | coord (xy : Nat × Nat) : Effect s .coord (withCoordinate s xy)
  | rdpix (c : Color) : Effect s .rdpix (s.setColor c)
  | wrpix (m : Memory 32) : Effect s .wrpix (s.setPix m)
  | load {t : State} : LoadFrame s t → t.status &&& 0xFD#8 = s.status &&& 0xFD#8 → Effect s .load t
  | save {t : State} : SaveFrame s t → Effect s .save t

/-- With a named format DECPX has its effect (R172). -/
theorem effect_of_exec_decpx {s t : State} (hf : ¬ badFormat s) (h : exec .decpx s = .next t) :
    Effect s .decpx t := by
  obtain ⟨f, hf⟩ := exists_formatCode hf
  rw [exec_decpx s hf] at h
  split at h
  · cases h
    exact .decpx _ (decodePixel_frame f s)
  · cases h
    exact .decpxAtEnd

/-- With a named orientation and format LOAD has its effect (R281). -/
theorem effect_of_exec_load {s t : State} (ho : ¬ badOrientation s) (hf : ¬ badFormat s)
    (h : exec .load s = .next t) : Effect s .load t := by
  obtain ⟨o, ho⟩ := exists_orientationCode ho
  obtain ⟨f, hf⟩ := exists_formatCode hf
  rw [exec_load hf ho] at h
  exact .load ((rewindInput_frame s).trans (loadLoop_frame h))
    ((loadLoop_status_and h).trans (status_withEos_and _ false))

/-- With a named orientation and format SAVE has its effect (R286). -/
theorem effect_of_exec_save {s t : State} (ho : ¬ badOrientation s) (hf : ¬ badFormat s)
    (h : exec .save s = .next t) : Effect s .save t := by
  obtain ⟨o, ho⟩ := exists_orientationCode ho
  obtain ⟨f, hf⟩ := exists_formatCode hf
  rw [exec_save hf ho] at h
  obtain ⟨u, d, hu, rfl⟩ := saveLoop_frame h
  exact .save ⟨u, d, (emptyOutput_frame s).trans hu, rfl⟩

/-- Every command that completes has its effect. -/
theorem effect_of_exec {i : Instr} {s t : State} (h : exec i s = .next t) : Effect s i t := by
  by_cases hr : ∃ e, Raises s i e
  case pos =>
    obtain ⟨e, he⟩ := hr
    rw [exec_eq_raise he] at h
    cases h
    exact .raised he
  case neg =>
    have good {e : ErrorKind} {p : Prop} (hp : p → Raises s i e) : ¬ p := fun x => hr ⟨e, hp x⟩
    cases i with
    | nop => cases h; exact .nop
    | cfg f o p => cases h; exact .cfg f o p
    | dim wm1 hm1 => cases h; exact .dim wm1 hm1
    | setidx n => cases h; exact .setidx n
    | setclo m => cases h; exact .setclo m
    | setchi m => cases h; exact .setchi m
    | rstin => cases h; exact .rstin
    | rstout => cases h; exact .rstout
    | decpx => exact effect_of_exec_decpx (good .decpx) h
    | encpx =>
      obtain ⟨f, hf⟩ := exists_formatCode (good Raises.encpx)
      rw [exec_encpx hf] at h
      exact .encpx (encodePixel_frame h)
    | coord =>
      obtain ⟨o, ho⟩ := exists_orientationCode (good Raises.coord)
      rw [exec_coord ho] at h
      cases h
      exact .coord _
    | rdpix =>
      rw [exec_rdpix] at h
      obtain ⟨c, hc⟩ := exists_of_samplePixel_eq_next h
      cases hc
      exact .rdpix c
    | wrpix =>
      rw [exec_wrpix] at h
      rcases storePixel_eq_next h with ⟨-, -, rfl⟩ | ⟨-, rfl⟩
      · exact .wrpix _
      · exact .wrpix t.pix
    | load =>
      have ho := good Raises.loadOrientation
      exact effect_of_exec_load ho (good (Raises.loadFormat ho)) h
    | save =>
      have ho := good Raises.saveOrientation
      exact effect_of_exec_save ho (good (Raises.saveFormat ho)) h
    | illegal w => exact absurd ⟨_, .illegal w⟩ hr

/-- A write of one of the flags of STATUS keeps the bits that are no field (R29). -/
theorem withBit_and_unused : ∀ k < 3, ∀ (v : BitVec 8) (b : Bool), withBit v k b &&& 0xC8#8 = v &&& 0xC8#8 := by
  decide +kernel

/-- A write of the error code keeps the bits of STATUS that are no field (R29). -/
theorem errWrite_and_unused : ∀ (v : BitVec 8) (c : BitVec 2),
    ((v &&& 0xCF#8) ||| (c.setWidth 8 <<< 4)) &&& 0xC8#8 = v &&& 0xC8#8 := by decide +kernel

/-- No command changes a bit of STATUS that is no field, or `BUSY`; `EOS` and `INB` have their writers (R29). -/
theorem Effect.status {s t : State} {i : Instr} (h : Effect s i t) :
    t.busy = s.busy ∧ t.status &&& 0xC8#8 = s.status &&& 0xC8#8 ∧
      (t.eos = s.eos ∨ i = .rstin ∨ i = .decpx ∨ i = .load) ∧ (t.inb = s.inb ∨ i = .coord) := by
  cases h with
  | raised h =>
    exact ⟨State.busy_withErr s _, errWrite_and_unused s.status _,
      .inl (State.eos_withErr s _), .inl (State.inb_withErr s _)⟩
  | rstin =>
    exact ⟨State.busy_withEos _ false, withBit_and_unused 1 (by decide) s.status false,
      .inr (.inl rfl), .inl (State.inb_withEos _ false)⟩
  | decpx c hu =>
    obtain ⟨_, _, _, _, rfl⟩ := hu
    exact ⟨rfl, rfl, .inl rfl, .inl rfl⟩
  | decpxAtEnd =>
    exact ⟨State.busy_withEos s true, withBit_and_unused 1 (by decide) s.status true,
      .inr (.inr (.inl rfl)), .inl (State.inb_withEos s true)⟩
  | encpx ht =>
    obtain ⟨_, _, _, _, _, rfl⟩ := ht
    exact ⟨rfl, rfl, .inl rfl, .inl rfl⟩
  | coord xy =>
    exact ⟨State.busy_withInb _ _, withBit_and_unused 2 (by decide) s.status _,
      .inl (State.eos_withInb _ _), .inr rfl⟩
  | load _ hstatus =>
    obtain ⟨hbusy, hinb, hrest⟩ := status_of_and_eq hstatus
    exact ⟨hbusy, hrest, .inr (.inr (.inr rfl)), .inl hinb⟩
  | save ht =>
    obtain ⟨u, d, ⟨_, _, _, _, _, rfl⟩, rfl⟩ := ht
    exact ⟨rfl, rfl, .inl rfl, .inl rfl⟩
  | nop | cfg | dim | setidx | setclo | setchi | rstout | rdpix | wrpix =>
    exact ⟨rfl, rfl, .inl rfl, .inl rfl⟩

/-- Each setting, coordinate and color register has its writers, and no command writes `IN_LEN` (R20). -/
theorem Effect.settings {s t : State} {i : Instr} (h : Effect s i t) :
    ((t.fmt ≠ s.fmt ∨ t.ori ≠ s.ori ∨ t.pad ≠ s.pad) → ∃ f o p, i = .cfg f o p) ∧
    ((t.width ≠ s.width ∨ t.height ≠ s.height) → ∃ w h, i = .dim w h) ∧
    ((t.sw ≠ s.sw ∨ t.sh ≠ s.sh) → (∃ w h, i = .dim w h) ∨ ∃ f o p, i = .cfg f o p) ∧
    (t.idx ≠ s.idx → ∃ n, i = .setidx n) ∧
    ((t.x ≠ s.x ∨ t.y ≠ s.y) → i = .coord) ∧
    (t.color ≠ s.color →
      (∃ h, i = .setclo h) ∨ (∃ h, i = .setchi h) ∨ i = .decpx ∨ i = .rdpix) ∧
    t.inLen = s.inLen := by
  cases h with
  | decpx c hu =>
    obtain ⟨_, _, _, _, rfl⟩ := hu
    simp [State.sw, State.sh]
  | encpx ht =>
    obtain ⟨_, _, _, _, _, rfl⟩ := ht
    simp [State.sw, State.sh]
  | load ht =>
    obtain ⟨_, _, _, _, _, _, _, rfl⟩ := ht
    simp [State.sw, State.sh]
  | save ht =>
    obtain ⟨u, d, ⟨_, _, _, _, _, rfl⟩, rfl⟩ := ht
    simp [State.sw, State.sh]
  | raised | nop | cfg | dim | setidx | setclo | setchi | rstin | rstout | decpxAtEnd | coord | rdpix | wrpix =>
    simp [State.sw, State.sh, State.withErr, State.withEos, State.withInb, rewindInput, emptyOutput,
      withCoordinate]

/-- Each register of the streams and of the conversions has its writers (R20). -/
theorem Effect.streams {s t : State} {i : Instr} (h : Effect s i t) :
    ((t.inPtr ≠ s.inPtr ∨ t.inNib ≠ s.inNib ∨ t.bqCnt ≠ s.bqCnt) →
      i = .rstin ∨ i = .decpx ∨ i = .load) ∧
    ((t.outLen ≠ s.outLen ∨ t.outNib ≠ s.outNib ∨ t.ebCnt ≠ s.ebCnt) →
      i = .rstout ∨ i = .encpx ∨ i = .save) ∧
    (t.doneCnt ≠ s.doneCnt → i = .load ∨ i = .save) ∧
    (t.bq ≠ s.bq → i = .decpx ∨ i = .load) ∧ (t.eb ≠ s.eb → i = .encpx ∨ i = .save) := by
  cases h with
  | decpx c hu =>
    obtain ⟨_, _, _, _, rfl⟩ := hu
    simp
  | encpx ht =>
    obtain ⟨_, _, _, _, _, rfl⟩ := ht
    simp
  | load ht =>
    obtain ⟨_, _, _, _, _, _, _, rfl⟩ := ht
    simp
  | save ht =>
    obtain ⟨u, d, ⟨_, _, _, _, _, rfl⟩, rfl⟩ := ht
    simp
  | raised | nop | cfg | dim | setidx | setclo | setchi | rstin | rstout | decpxAtEnd | coord | rdpix | wrpix =>
    simp [State.withErr, State.withEos, State.withInb, rewindInput, emptyOutput, withCoordinate]

/-- Each memory has its writers, and no command writes TEXIN, the parameter or a field of the host (R60). -/
theorem Effect.memories {s t : State} {i : Instr} (h : Effect s i t) :
    t.texin = s.texin ∧ (t.texout ≠ s.texout → i = .rstout ∨ i = .encpx ∨ i = .save) ∧
    (t.pix ≠ s.pix → i = .wrpix ∨ i = .load) ∧ t.nibbleOrder = s.nibbleOrder ∧
    t.script = s.script ∧ t.pos = s.pos ∧ t.reply = s.reply := by
  cases h with
  | decpx c hu =>
    obtain ⟨_, _, _, _, rfl⟩ := hu
    simp
  | encpx ht =>
    obtain ⟨_, _, _, _, _, rfl⟩ := ht
    simp
  | load ht =>
    obtain ⟨_, _, _, _, _, _, _, rfl⟩ := ht
    simp
  | save ht =>
    obtain ⟨u, d, ⟨_, _, _, _, _, rfl⟩, rfl⟩ := ht
    simp
  | raised | nop | cfg | dim | setidx | setclo | setchi | rstin | rstout | decpxAtEnd | coord | rdpix | wrpix =>
    simp [State.withErr, State.withEos, State.withInb, rewindInput, emptyOutput, withCoordinate]

/-- The strides are stored as 15-bit values, which hold every stride of a legal dimension (R25). -/
theorem registerValue_strides {s : State} (hdims : s.legalDims) :
    (registerValue s 5).toNat = s.sw ∧ (registerValue s 6).toNat = s.sh := by
  obtain ⟨-, hwidth, -, hheight⟩ := hdims
  have hsw : s.sw ≤ 16384 := strideOf_le_maxDim s.pad hwidth
  have hsh : s.sh ≤ 16384 := strideOf_le_maxDim s.pad hheight
  simp only [registerValue, BitVec.toNat_setWidth, BitVec.toNat_ofNat]
  omega

end Sys2Proof.Machine

namespace Sys2Proof.Proofs

open Sys2Proof.Machine Sys2Proof.Claims

/-- Settles O12: the table of R20 is `registerValue`, and a command writes the registers that its effect names. -/
theorem registersByNumberAndByWriter : Obligations.RegistersByNumberAndByWriter := by
  unfold Obligations.RegistersByNumberAndByWriter
  refine ⟨fun s => ?numbers, fun i s t h => ?writers⟩
  case numbers =>
    exact ⟨rfl, rfl, rfl, rfl, rfl, registerValue_strides, rfl, rfl, rfl, rfl, rfl, rfl, rfl, rfl, rfl,
      rfl, rfl, rfl, rfl⟩
  case writers =>
    have heffect := effect_of_exec h
    obtain ⟨hbusy, hrest, heos, hinb⟩ := heffect.status
    obtain ⟨hconfig, hdims, hstrides, hidx, hcoord, hcolor, hinLen⟩ := heffect.settings
    obtain ⟨hinput, houtput, hdone, hbq, heb⟩ := heffect.streams
    exact ⟨hconfig, hdims, hstrides, hidx, hcoord, hcolor, heos.resolve_left, hinb.resolve_left, hbusy,
      hrest, hinLen, hinput, houtput, hdone, hbq, heb⟩

/-- Settles O13: no effect names TEXIN or a field of the host, and those that name TEXOUT and PIX are the listed
ones. -/
theorem memoriesByWriter : Obligations.MemoriesByWriter := by
  unfold Obligations.MemoriesByWriter
  intro i s t h
  exact (effect_of_exec h).memories

end Sys2Proof.Proofs

/-! Faults (R60, R62): with legal dimensions no command forms an address outside PIX. -/

namespace Sys2Proof.Machine

open Sys2Proof.Claims

theorem OutputFrame.legalDims {s t : State} (h : OutputFrame s t) (hdims : s.legalDims) : t.legalDims := by
  obtain ⟨_, _, _, _, _, rfl⟩ := h
  exact hdims

theorem saveLoop_ne_fault {s : State} (hdims : s.legalDims) (f : Format) (o : Orientation)
    (left i : Nat) (x : Fault) : saveLoop f o left i s ≠ .fault x := by
  induction left generalizing i s with
  | zero => exact nofun
  | succ left ih =>
    rw [saveLoop, samplePixel_of_legalDims hdims, Ne, andThen_eq_fault]
    rintro (hpixel | ⟨u, hu, hrest⟩)
    · exact encodePixel_ne_fault f _ s x hpixel
    · exact ih ((encodePixel_frame hu).legalDims hdims) (i + 1) hrest

/-- An operation behind the orientation check faults only by itself. -/
theorem withOrientation_ne_fault {s : State} {k : Orientation → Result} {x : Fault}
    (h : ∀ o, k o ≠ .fault x) : withOrientation s k ≠ .fault x := by
  unfold withOrientation
  split
  · exact h _
  · exact nofun

/-- An operation behind the format check faults only by itself. -/
theorem withFormat_ne_fault {s : State} {k : Format → Result} {x : Fault}
    (h : ∀ f, k f ≠ .fault x) : withFormat s k ≠ .fault x := by
  unfold withFormat
  split
  · exact h _
  · exact nofun

theorem execDecpx_ne_fault (s : State) (x : Fault) : execDecpx s ≠ .fault x :=
  withFormat_ne_fault fun f => by
    dsimp only
    split <;> exact nofun

theorem storePixel_ne_fault {s : State} (hdims : s.legalDims) (xy : Nat × Nat) (c : Color) (x : Fault) :
    storePixel s xy c ≠ .fault x := by
  obtain ⟨t, ht, -⟩ := exists_storePixel hdims xy c
  rw [ht]
  exact nofun

theorem loadLoop_ne_fault {s : State} (hdims : s.legalDims) (f : Format) (o : Orientation) (x : Fault) :
    loadLoop f o (seqLength s) 0 (rewindInput s) ≠ .fault x := by
  have hlen : 0 + seqLength s ≤ 2 ^ 28 := (Nat.zero_add _).trans_le (seqLength_le hdims)
  obtain ⟨t, ht, -⟩ := exists_loadLoop ((rewindInput_frame s).legalDims hdims) f o hlen
  rw [ht]
  exact nofun

end Sys2Proof.Machine

namespace Sys2Proof.Proofs

open Sys2Proof.Machine Sys2Proof.Claims

/-- Settles O57: only the commands that read or write PIX form an address, of a pixel of the buffer. -/
theorem legalDimensionsNeverFault : Obligations.LegalDimensionsNeverFault := by
  unfold Obligations.LegalDimensionsNeverFault
  intro i s x hdims
  cases i with
  | decpx => exact execDecpx_ne_fault s x
  | encpx => exact withFormat_ne_fault fun f => encodePixel_ne_fault f s.color s x
  | coord => exact withOrientation_ne_fault fun o => nofun
  | rdpix =>
    rw [exec_rdpix, samplePixel_of_legalDims hdims]
    exact nofun
  | wrpix => exact storePixel_ne_fault hdims _ s.color x
  | load =>
    exact withOrientation_ne_fault fun o => withFormat_ne_fault fun f => loadLoop_ne_fault hdims f o x
  | save =>
    exact withOrientation_ne_fault fun o => withFormat_ne_fault fun f =>
      saveLoop_ne_fault ((emptyOutput_frame s).legalDims hdims) f o _ 0 x
  | nop | cfg | dim | setidx | setclo | setchi | rstin | rstout | illegal => exact nofun

end Sys2Proof.Proofs

/-! The invariant of a legal state (R24 to R37, R60): each operation keeps it, and `BUSY` apart so does each
command. -/

namespace Sys2Proof.Machine

open Sys2Proof.Claims

/-- The input side of a legal state (R32, R35). -/
def InputLegal (s : State) : Prop := nibLegal s.inNib ∧ s.bqCnt.toNat ≤ 16

/-- The output side of a legal state (R33, R34). -/
def OutputLegal (s : State) : Prop :=
  nibLegal s.outNib ∧ s.texout.addresses = List.range s.outLen.toNat

/-- A legal state, but for `BUSY`. -/
structure LegalBlock (s : State) : Prop where
  dims : s.legalDims
  x : s.x.toNat < 2 ^ 25
  y : s.y.toNat < 2 ^ 25
  status : s.status &&& ~~~statusFields = 0#8
  input : InputLegal s
  output : OutputLegal s
  doneCnt : s.doneCnt.toNat ≤ 2 ^ 28
  texin : s.texin.wf Config.texBytes = true
  pix : s.pix.wf Config.pixWords = true

theorem legal_iff (s : State) : s.legal ↔ LegalBlock s ∧ s.busy = false := by
  constructor
  · rintro ⟨⟨hdims, hx, hy, hstatus, hbusy, hin, hout, hbq, hdone⟩, htexin, hpix, htexout⟩
    exact ⟨⟨hdims, hx, hy, hstatus, ⟨hin, hbq⟩, ⟨hout, htexout⟩, hdone, htexin, hpix⟩, hbusy⟩
  · rintro ⟨⟨hdims, hx, hy, hstatus, ⟨hin, hbq⟩, ⟨hout, htexout⟩, hdone, htexin, hpix⟩, hbusy⟩
    exact ⟨⟨hdims, hx, hy, hstatus, hbusy, hin, hout, hbq, hdone⟩, htexin, hpix, htexout⟩

theorem nibLegal_zero : nibLegal 0#8 := by decide

theorem nibLegal_holding (n : Nibble) : nibLegal (nibHolding n) :=
  ⟨nibHolding_fields n, by simp⟩

/-! ### The input side -/

theorem rdByte_inputLegal {s : State} (h : InputLegal s) : InputLegal (rdByte s).2 := ⟨nibLegal_zero, h.2⟩

theorem rdNib_inputLegal {s : State} (h : InputLegal s) : InputLegal (rdNib s).2 := by
  rw [rdNib_eq]
  split
  · exact ⟨nibLegal_zero, h.2⟩
  · exact ⟨nibLegal_holding _, h.2⟩

/-- A bundle hands out one color, after a refill when it is empty, so it never holds more than 16 (R35). -/
theorem etcNext_inputLegal (hasAlpha : Bool) {s : State} (h : InputLegal s) :
    InputLegal (etcNext hasAlpha s).2 := by
  obtain ⟨hnib, hcnt⟩ := h
  by_cases hempty : s.bqCnt = 0#5
  case pos =>
    rw [etcNext_empty hempty]
    exact ⟨nibLegal_zero, (by decide : (15#5).toNat ≤ 16)⟩
  case neg =>
    rw [etcNext_pending hempty]
    refine ⟨hnib, ?_⟩
    have hpos : 1#5 ≤ s.bqCnt := by
      rw [BitVec.le_def]
      have hne : s.bqCnt.toNat ≠ 0 := fun h0 => hempty (BitVec.eq_of_toNat_eq h0)
      exact Nat.one_le_iff_ne_zero.mpr hne
    rw [State.setBqCnt_bqCnt, BitVec.toNat_sub_of_le hpos]
    exact (Nat.sub_le _ _).trans hcnt

theorem decodePixel_inputLegal (f : Format) {s : State} (h : InputLegal s) :
    InputLegal (decodePixel f s).2 := by
  cases f with
  | rgba8888 =>
    exact rdByte_inputLegal (rdByte_inputLegal (rdByte_inputLegal (rdByte_inputLegal h)))
  | rgb888 => exact rdByte_inputLegal (rdByte_inputLegal (rdByte_inputLegal h))
  | rgba5551 | rgb565 | la88 | hl88 => exact rdByte_inputLegal (rdByte_inputLegal h)
  | l8 | a8 => exact rdByte_inputLegal h
  | rgba4444 => exact rdNib_inputLegal (rdNib_inputLegal (rdNib_inputLegal (rdNib_inputLegal h)))
  | la44 => exact rdNib_inputLegal (rdNib_inputLegal h)
  | l4 | a4 => exact rdNib_inputLegal h
  | etc1 => exact etcNext_inputLegal false h
  | etc1a4 => exact etcNext_inputLegal true h

/-! ### The output side -/

/-- An append to TEXOUT holding the bytes below `OUT_LEN` (R33, R76). -/
theorem texAppend_outputLegal {b : Byte} {s t : State} (h : texAppend b s = .next t) (hs : OutputLegal s) :
    OutputLegal t := by
  obtain ⟨hnib, hout⟩ := hs
  obtain ⟨hne, rfl⟩ := texAppend_eq_next.mp h
  have hlen : (s.outLen + 1#32).toNat = s.outLen.toNat + 1 := by
    have hlt : s.outLen.toNat < 2 ^ 32 := s.outLen.isLt
    have hfull : s.outLen.toNat ≠ 0xFFFFFFFF := fun h => hne (BitVec.eq_of_toNat_eq h)
    rw [BitVec.toNat_add, BitVec.toNat_ofNat]
    omega
  refine ⟨hnib, ?_⟩
  rw [State.setTexout_texout, State.setTexout_outLen, hlen]
  exact Memory.addresses_append b hout

/-- An append after which nothing is pending. -/
theorem texAppend_setOutNib_outputLegal {b : Byte} {s t : State}
    (h : andThen (texAppend b s) (fun u => .next (u.setOutNib 0#8)) = .next t) (hs : OutputLegal s) :
    OutputLegal t := by
  obtain ⟨u, hu, ht⟩ := andThen_eq_next.mp h
  cases ht
  exact ⟨nibLegal_zero, (texAppend_outputLegal hu hs).2⟩

theorem flushNib_outputLegal {s t : State} (h : flushNib s = .next t) (hs : OutputLegal s) :
    OutputLegal t := by
  unfold flushNib at h
  split at h
  · exact texAppend_setOutNib_outputLegal h hs
  · cases h
    exact hs

theorem wrByte_outputLegal {b : Byte} {s t : State} (h : wrByte b s = .next t) (hs : OutputLegal s) :
    OutputLegal t := by
  obtain ⟨u, hu, ht⟩ := andThen_eq_next.mp h
  exact texAppend_outputLegal ht (flushNib_outputLegal hu hs)

theorem wrBytes_outputLegal {l : List Byte} {s t : State} (h : wrBytes l s = .next t)
    (hs : OutputLegal s) : OutputLegal t := by
  induction l generalizing s with
  | nil => cases h; exact hs
  | cons b rest ih =>
    obtain ⟨u, hu, ht⟩ := andThen_eq_next.mp h
    exact ih ht (wrByte_outputLegal hu hs)

theorem wrNib_outputLegal {v : Nibble} {s t : State} (h : wrNib v s = .next t) (hs : OutputLegal s) :
    OutputLegal t := by
  unfold wrNib at h
  split at h
  · exact texAppend_setOutNib_outputLegal h hs
  · cases h
    exact ⟨nibLegal_holding v, hs.2⟩

theorem wrNibs_outputLegal {l : List Nibble} {s t : State} (h : wrNibs l s = .next t)
    (hs : OutputLegal s) : OutputLegal t := by
  induction l generalizing s with
  | nil => cases h; exact hs
  | cons v rest ih =>
    obtain ⟨u, hu, ht⟩ := andThen_eq_next.mp h
    exact ih ht (wrNib_outputLegal hu hs)

/-- The encode bundle is not part of what a legal output is. -/
theorem OutputLegal.of_eq {s t : State} (hs : OutputLegal s) (hnib : t.outNib = s.outNib)
    (hout : t.texout = s.texout) (hlen : t.outLen = s.outLen) : OutputLegal t := by
  rw [OutputLegal, hnib, hout, hlen]
  exact hs

theorem etcPut_outputLegal {hasAlpha : Bool} {c : Color} {s t : State}
    (h : etcPut hasAlpha c s = .next t) (hs : OutputLegal s) : OutputLegal t := by
  by_cases hcnt : s.ebCnt.toNat < 15
  case pos =>
    rw [etcPut_collect hcnt] at h
    cases h
    exact hs.of_eq (by simp) (by simp) (by simp)
  case neg =>
    have hlast : s.ebCnt = 15#4 := by
      have hlt : s.ebCnt.toNat < 16 := s.ebCnt.isLt
      exact BitVec.eq_of_toNat_eq (by rw [BitVec.toNat_ofNat]; omega)
    rw [etcPut_full hlast] at h
    obtain ⟨u, hu, ht⟩ := andThen_eq_next.mp h
    cases ht
    have hcollected : OutputLegal (s.setEb (collect s c)) := hs.of_eq (by simp) (by simp) (by simp)
    exact (wrBytes_outputLegal hu hcollected).of_eq (by simp) (by simp) (by simp)

theorem encodePixel_outputLegal {f : Format} {c : Color} {s t : State}
    (h : encodePixel f c s = .next t) (hs : OutputLegal s) : OutputLegal t := by
  cases f with
  | rgba8888 | rgb888 | la88 | hl88 | l8 | a8 => exact wrBytes_outputLegal h hs
  | rgba5551 | rgb565 =>
    rw [encodePixel, wrWord16_eq_wrBytes] at h
    exact wrBytes_outputLegal h hs
  | rgba4444 | la44 | l4 | a4 => exact wrNibs_outputLegal h hs
  | etc1 | etc1a4 => exact etcPut_outputLegal h hs

/-! ### The block -/

theorem InputFrame.legalBlock {s t : State} (h : InputFrame s t) (ht : InputLegal t)
    (hs : LegalBlock s) : LegalBlock t := by
  obtain ⟨_, _, _, _, rfl⟩ := h
  exact { hs with input := ht }

theorem OutputFrame.legalBlock {s t : State} (h : OutputFrame s t) (ht : OutputLegal t)
    (hs : LegalBlock s) : LegalBlock t := by
  obtain ⟨_, _, _, _, _, rfl⟩ := h
  exact { hs with output := ht }

theorem LegalBlock.setDoneCnt {s : State} (hs : LegalBlock s) {i : Nat} (hi : i ≤ 2 ^ 28) :
    LegalBlock (s.setDoneCnt (BitVec.ofNat 29 i)) := by
  refine { hs with doneCnt := ?_ }
  rw [State.setDoneCnt_doneCnt, BitVec.toNat_ofNat]
  omega

theorem LegalBlock.setStatus {s : State} (hs : LegalBlock s) {v : BitVec 8}
    (hv : v &&& ~~~statusFields = 0#8) : LegalBlock (s.setStatus v) := { hs with status := hv }

/-- A write of a flag of STATUS sets no bit that is no field (R29). -/
theorem LegalBlock.setFlag {s : State} (hs : LegalBlock s) {k : Nat} (hk : k < 3) (b : Bool) :
    LegalBlock (s.setStatus (withBit s.status k b)) :=
  hs.setStatus ((withBit_and_unused k hk s.status b).trans hs.status)

theorem LegalBlock.withBusy {s : State} (hs : LegalBlock s) (b : Bool) : LegalBlock (s.withBusy b) :=
  hs.setFlag (by decide) b

theorem LegalBlock.withEos {s : State} (hs : LegalBlock s) (b : Bool) : LegalBlock (s.withEos b) :=
  hs.setFlag (by decide) b

theorem LegalBlock.withInb {s : State} (hs : LegalBlock s) (b : Bool) : LegalBlock (s.withInb b) :=
  hs.setFlag (by decide) b

theorem LegalBlock.withErr {s : State} (hs : LegalBlock s) (c : BitVec 2) : LegalBlock (s.withErr c) :=
  hs.setStatus ((errWrite_and_unused s.status c).trans hs.status)

theorem LegalBlock.decodePixel {s : State} (hs : LegalBlock s) (f : Format) :
    LegalBlock (decodePixel f s).2 :=
  (decodePixel_frame f s).legalBlock (decodePixel_inputLegal f hs.input) hs

theorem LegalBlock.encodePixel {s t : State} (hs : LegalBlock s) {f : Format} {c : Color}
    (h : encodePixel f c s = .next t) : LegalBlock t :=
  (encodePixel_frame h).legalBlock (encodePixel_outputLegal h hs.output) hs

theorem LegalBlock.rewindInput {s : State} (hs : LegalBlock s) : LegalBlock (rewindInput s) :=
  have hinput : LegalBlock ((s.setInput 0#32 0#8).setBqCnt 0#5) :=
    { hs with input := ⟨nibLegal_zero, Nat.zero_le _⟩ }
  hinput.withEos false

theorem LegalBlock.emptyOutput {s : State} (hs : LegalBlock s) : LegalBlock (emptyOutput s) :=
  { hs with output := ⟨nibLegal_zero, rfl⟩ }

theorem LegalBlock.storePixel {s t : State} (hs : LegalBlock s) {xy : Nat × Nat} {c : Color}
    (h : storePixel s xy c = .next t) : LegalBlock t := by
  rcases storePixel_eq_next h with ⟨-, haddr, rfl⟩ | ⟨-, rfl⟩
  · exact { hs with pix := Memory.wf_write s.pix c haddr hs.pix }
  · exact hs

theorem LegalBlock.loadLoop {s t : State} (hs : LegalBlock s) {f : Format} {o : Orientation}
    {left i : Nat} (hlen : i + left ≤ 2 ^ 28) (h : loadLoop f o left i s = .next t) : LegalBlock t := by
  induction left generalizing i s with
  | zero =>
    cases h
    exact hs.setDoneCnt hlen
  | succ left ih =>
    by_cases hin : hasInput f s = true
    case pos =>
      rw [loadLoop_of_hasInput hin] at h
      obtain ⟨u, hu, ht⟩ := andThen_eq_next.mp h
      exact ih ((hs.decodePixel f).storePixel hu) (by omega) ht
    case neg =>
      rw [loadLoop_of_not_hasInput hin] at h
      cases h
      exact (hs.withEos true).setDoneCnt (by omega)

theorem LegalBlock.saveLoop {s t : State} (hs : LegalBlock s) {f : Format} {o : Orientation}
    {left i : Nat} (hlen : i + left ≤ 2 ^ 28) (h : saveLoop f o left i s = .next t) : LegalBlock t := by
  induction left generalizing i s with
  | zero =>
    cases h
    exact hs.setDoneCnt hlen
  | succ left ih =>
    rw [Machine.saveLoop, samplePixel_of_legalDims hs.dims] at h
    obtain ⟨u, hu, ht⟩ := andThen_eq_next.mp h
    exact ih (hs.encodePixel hu) (by omega) ht

theorem LegalBlock.withCoordinate {s : State} (hs : LegalBlock s) (o : Orientation) {i : Nat}
    (hi : i < 2 ^ 28) : LegalBlock (withCoordinate s (coordOf s o i)) := by
  obtain ⟨hx, hy⟩ := coordOf_lt hs.dims o hi
  have hcoord : LegalBlock
      (s.setCoord (BitVec.ofNat 32 (coordOf s o i).1) (BitVec.ofNat 32 (coordOf s o i).2)) :=
    { hs with x := (toNat_ofNat_of_lt hx).trans_lt hx, y := (toNat_ofNat_of_lt hy).trans_lt hy }
  exact hcoord.withInb _

/-! ### Every command and every interaction -/

theorem LegalBlock.exec {s t : State} (hs : LegalBlock s) {i : Instr} (h : exec i s = .next t) :
    LegalBlock t := by
  have hlen : 0 + seqLength s ≤ 2 ^ 28 := (Nat.zero_add _).trans_le (seqLength_le hs.dims)
  by_cases hr : ∃ e, Raises s i e
  case pos =>
    obtain ⟨e, he⟩ := hr
    rw [exec_eq_raise he] at h
    cases h
    exact hs.withErr _
  case neg =>
    have good {e : ErrorKind} {p : Prop} (hp : p → Raises s i e) : ¬ p := fun x => hr ⟨e, hp x⟩
    cases i with
    | nop => cases h; exact hs
    | cfg f o p => cases h; exact { hs with }
    | dim wm1 hm1 =>
      cases h
      have hw : wm1.toNat < 2 ^ 14 := wm1.isLt
      have hh : hm1.toNat < 2 ^ 14 := hm1.isLt
      refine { hs with dims := ?_ }
      simp only [State.legalDims, State.setDims_width, State.setDims_height, dimension_toNat,
        Config.maxDim]
      omega
    | setidx n => cases h; exact { hs with }
    | setclo m => cases h; exact { hs with }
    | setchi m => cases h; exact { hs with }
    | rstin => cases h; exact hs.rewindInput
    | rstout => cases h; exact hs.emptyOutput
    | decpx =>
      obtain ⟨f, hf⟩ := exists_formatCode (good Raises.decpx)
      rw [exec_decpx s hf] at h
      split at h
      · cases h
        exact { hs.decodePixel f with }
      · cases h
        exact hs.withEos true
    | encpx =>
      obtain ⟨f, hf⟩ := exists_formatCode (good Raises.encpx)
      rw [exec_encpx hf] at h
      exact hs.encodePixel h
    | coord =>
      obtain ⟨o, ho⟩ := exists_orientationCode (good Raises.coord)
      rw [exec_coord ho] at h
      cases h
      exact hs.withCoordinate o s.idx.isLt
    | rdpix =>
      rw [exec_rdpix, samplePixel_of_legalDims hs.dims] at h
      cases h
      exact { hs with }
    | wrpix =>
      rw [exec_wrpix] at h
      exact hs.storePixel h
    | load =>
      have hori := good Raises.loadOrientation
      obtain ⟨o, ho⟩ := exists_orientationCode hori
      obtain ⟨f, hf⟩ := exists_formatCode (good (Raises.loadFormat hori))
      rw [exec_load hf ho] at h
      exact hs.rewindInput.loadLoop hlen h
    | save =>
      have hori := good Raises.saveOrientation
      obtain ⟨o, ho⟩ := exists_orientationCode hori
      obtain ⟨f, hf⟩ := exists_formatCode (good (Raises.saveFormat hori))
      rw [exec_save hf ho] at h
      exact hs.emptyOutput.saveLoop hlen h
    | illegal w => exact absurd ⟨_, .illegal w⟩ hr

/-- A host access other than a command keeps a legal block legal and idle. -/
theorem LegalBlock.done {s : State} (hs : LegalBlock s) (r : Option Word) : LegalBlock (done s r) :=
  { hs with }

/-- The reset input leaves the registers of power-on, and the memories but TEXOUT as they were (R330). -/
theorem LegalBlock.resetBlock {s : State} (hs : LegalBlock s) : LegalBlock (resetBlock s) := by
  have hreset : LegalBlock State.reset := ((legal_iff _).mp Proofs.resetStateIsLegal).1
  exact { hreset with texin := hs.texin, pix := hs.pix }

/-- A word at the port of a legal idle block leaves one (R100, R304). -/
theorem legal_submit {s t : State} {w : Word} (hs : LegalBlock s) (hb : s.busy = false)
    (h : submit w s = .next t) : LegalBlock t ∧ t.busy = false := by
  unfold submit at h
  rw [hb, if_neg (by decide)] at h
  split at h
  · cases h
    exact ⟨hs.done none, hb⟩
  · obtain ⟨u, hu, ht⟩ := andThen_eq_next.mp h
    cases ht
    have haccept : LegalBlock s.accept := (hs.done none).withBusy true
    exact ⟨(haccept.exec hu).withBusy false, State.busy_withBusy u false⟩

/-- Any interaction with a legal idle block leaves one (R80). -/
theorem legal_interact {s t : State} {h : Interaction} (hs : LegalBlock s) (hb : s.busy = false)
    (hstep : interact h s = .next t) : LegalBlock t ∧ t.busy = false := by
  cases h with
  | command w => exact legal_submit hs hb hstep
  | readRegister n =>
    rw [interact, whenIdle_of_idle _ hb] at hstep
    cases hstep
    exact ⟨hs.done _, hb⟩
  | writeRegister n v =>
    rw [interact, whenIdle_of_idle _ hb] at hstep
    rw [writeRegister_eq_next hstep]
    exact ⟨{ hs with }, hb⟩
  | readTexin a =>
    rw [interact, whenIdle_of_idle _ hb] at hstep
    cases hstep
    exact ⟨hs.done _, hb⟩
  | writeTexin a b =>
    rw [interact, whenIdle_of_idle _ hb] at hstep
    cases hstep
    exact ⟨{ hs with texin := Memory.wf_write s.texin b a.isLt hs.texin }, hb⟩
  | readTexout a =>
    rw [interact, whenIdle_of_idle _ hb] at hstep
    obtain ⟨v, rfl⟩ := exists_of_readTexout_eq_next hstep
    exact ⟨hs.done _, hb⟩
  | writeTexout a b =>
    rw [interact, whenIdle_of_idle _ hb] at hstep
    cases hstep
  | readPix a =>
    rw [interact, whenIdle_of_idle _ hb] at hstep
    cases hstep
    exact ⟨hs.done _, hb⟩
  | writePix a v =>
    rw [interact, whenIdle_of_idle _ hb] at hstep
    cases hstep
    exact ⟨{ hs with pix := Memory.wf_write s.pix v a.isLt hs.pix }, hb⟩
  | reset =>
    rw [interact, whenIdle_of_idle _ hb] at hstep
    cases hstep
    exact ⟨hs.resetBlock.done none, (by decide : State.reset.busy = false)⟩

end Sys2Proof.Machine

namespace Sys2Proof.Proofs

open Sys2Proof.Machine

/-- Settles O56: a step is one interaction with an idle block, or no step of the block at all. -/
theorem everyStepKeepsTheStateLegal : Obligations.EveryStepKeepsTheStateLegal := by
  unfold Obligations.EveryStepKeepsTheStateLegal
  intro s t hs hstep
  obtain ⟨hblock, hb⟩ := (legal_iff s).mp hs
  unfold step portStep at hstep
  split at hstep
  · exact (legal_iff t).mpr (legal_interact hblock hb hstep)
  · cases hstep
    exact hs

end Sys2Proof.Proofs

/-! A full TEXOUT (R76): a stream write whose bytes do not all fit is refused, at whichever of its appends finds no
room. -/

namespace Sys2Proof.Machine

open Sys2Proof.Claims

/-! ### The writes -/

/-- There is room for one more byte unless `OUT_LEN` is 2^32 - 1 (R76). -/
theorem roomFor_one_iff (s : State) : roomFor s 1 ↔ s.outLen ≠ 0xFFFFFFFF#32 := by
  have hlt : s.outLen.toNat < 2 ^ 32 := s.outLen.isLt
  have hfull : s.outLen = 0xFFFFFFFF#32 ↔ s.outLen.toNat = 0xFFFFFFFF := BitVec.toNat_inj.symm
  rw [roomFor, Ne, hfull]
  omega

theorem texAppend_refused {s : State} (h : ¬ roomFor s 1) (b : Byte) :
    texAppend b s = .refused .texoutFull :=
  texAppend_full (not_not.mp (mt (roomFor_one_iff s).mpr h)) b

/-- A sequence whose bytes do not all fit is refused by its first part, or by its second part where the first ends.
-/
theorem andThen_refused_of_full {r : Result} {k : State → Result} {s : State} {out : List Byte} {n : Nat}
    {nib : BitVec 8} (hfull : ¬ roomFor s (out.length + n))
    (hr : roomFor s out.length → ∃ u, r = .next u ∧ appends s u out nib)
    (hr' : ¬ roomFor s out.length → r = .refused .texoutFull)
    (hk : ∀ u, u.outNib = nib → u.nibbleOrder = s.nibbleOrder → ¬ roomFor u n →
      k u = .refused .texoutFull) :
    andThen r k = .refused .texoutFull := by
  by_cases hroom : roomFor s out.length
  case pos =>
    obtain ⟨u, rfl, hu⟩ := hr hroom
    have hlen := appends_outLen hu hroom
    obtain ⟨-, hnib, horder⟩ := appends_fields hu
    exact hk u hnib horder (by omega)
  case neg => rw [hr' hroom, Machine.andThen_refused]

/-- An append that is refused writes no `OUT_NIB` either. -/
theorem texAppend_setOutNib_refused {s : State} (h : ¬ roomFor s 1) (b : Byte) (v : BitVec 8) :
    andThen (texAppend b s) (fun u => .next (u.setOutNib v)) = .refused .texoutFull := by
  rw [texAppend_refused h, andThen_refused]

theorem roomFor_zero (s : State) : roomFor s 0 := s.outLen.isLt

theorem flushNib_refused {s : State} (h : ¬ roomFor s (flushed s).length) :
    flushNib s = .refused .texoutFull := by
  cases hpend : nibPending s.outNib
  case false =>
    rw [flushed_of_idle hpend] at h
    exact absurd (roomFor_zero s) h
  case true =>
    rw [flushed_of_pending hpend] at h
    rw [flushNib_pending hpend, texAppend_setOutNib_refused h]

theorem wrByte_refused {s : State} (b : Byte) (h : ¬ roomFor s ((flushed s).length + 1)) :
    wrByte b s = .refused .texoutFull :=
  andThen_refused_of_full h flushNib_appends flushNib_refused fun _ _ _ hu => texAppend_refused hu b

theorem wrBytes_refused_of_idle {l : List Byte} {s : State} (hidle : nibPending s.outNib = false)
    (h : ¬ roomFor s l.length) : wrBytes l s = .refused .texoutFull := by
  induction l generalizing s with
  | nil => exact absurd (roomFor_zero s) h
  | cons b rest ih =>
    rw [List.length_cons, Nat.add_comm] at h
    rw [wrBytes, wrByte_idle hidle]
    refine andThen_refused_of_full (out := [b]) h (texAppend_appends · b) (texAppend_refused · b) ?_
    rintro u hnib - hu
    exact ih (by rw [hnib, hidle]) hu

/-- Bytes that do not all fit after the flush of a pending nibble are refused (R73, R76). -/
theorem wrBytes_refused {l : List Byte} {s : State} (hl : l ≠ [])
    (h : ¬ roomFor s ((flushed s).length + l.length)) : wrBytes l s = .refused .texoutFull := by
  obtain ⟨b, rest, rfl⟩ := List.exists_cons_of_ne_nil hl
  have hlen : (flushed s ++ [b]).length = (flushed s).length + 1 := List.length_append
  rw [List.length_cons] at h
  rw [wrBytes]
  refine andThen_refused_of_full (out := flushed s ++ [b]) (n := rest.length)
    (by rw [hlen]; omega)
    (fun hroom => wrByte_appends b (by rwa [hlen] at hroom))
    (fun hfull => wrByte_refused b (by rwa [hlen] at hfull)) ?_
  rintro u hnib - hu
  exact wrBytes_refused_of_idle (by rw [hnib, nibPending_nibAfterBytes]) hu

theorem wrNib_refused_of_pending {s : State} (hpend : nibPending s.outNib = true)
    (h : ¬ roomFor s 1) (v : Nibble) : wrNib v s = .refused .texoutFull := by
  rw [wrNib_second hpend, texAppend_setOutNib_refused h]

theorem wrNib_pair_refused {s : State} (hidle : nibPending s.outNib = false) (h : ¬ roomFor s 1)
    (a b : Nibble) : andThen (wrNib a s) (wrNib b) = .refused .texoutFull := by
  have hheld : ¬ roomFor (s.setOutNib (nibHolding a)) 1 := h
  rw [wrNib_first hidle, andThen_next, wrNib_refused_of_pending (nibPending_holding a) hheld]

/-- With nothing pending, nibbles whose bytes do not all fit are refused (R74, R76). -/
theorem wrNibs_refused_of_idle : ∀ (l : List Nibble) (s : State), nibPending s.outNib = false →
    ¬ roomFor s (paired s.nibbleOrder (l.map BitVec.toNat)).1.length →
    wrNibs l s = .refused .texoutFull
  | [], s, _, h => absurd (roomFor_zero s) h
  | [_], s, _, h => absurd (roomFor_zero s) h
  | a :: b :: rest, s, hidle, h => by
    simp only [List.map_cons, paired, List.length_cons] at h
    have hpair : wrNibs (a :: b :: rest) s =
        andThen (andThen (wrNib a s) (wrNib b)) (wrNibs rest) := by
      rw [andThen_assoc]
      rfl
    rw [hpair]
    refine andThen_refused_of_full (out := [_])
      (n := (paired s.nibbleOrder (rest.map BitVec.toNat)).1.length)
      (by rw [List.length_singleton]; omega)
      (wrNib_pair_appends hidle · a b) (wrNib_pair_refused hidle · a b) ?_
    intro u hnib horder hu
    exact wrNibs_refused_of_idle rest u (by rw [hnib, nibPending_zero]) (by rwa [horder])

/-- Nibbles whose bytes do not all fit are refused, a pending one being the first (R74, R76). -/
theorem wrNibs_refused {l : List Nibble} {s : State} (hl : l ≠ [])
    (h : ¬ roomFor s (paired s.nibbleOrder (outPending s ++ l.map BitVec.toNat)).1.length) :
    wrNibs l s = .refused .texoutFull := by
  cases hpend : nibPending s.outNib
  case false =>
    rw [outPending_of_idle hpend, List.nil_append] at h
    exact wrNibs_refused_of_idle l s hpend h
  case true =>
    obtain ⟨v, rest, rfl⟩ := List.exists_cons_of_ne_nil hl
    simp only [outPending_of_pending hpend, List.map_cons, List.cons_append, List.nil_append, paired,
      List.length_cons] at h
    rw [wrNibs]
    refine andThen_refused_of_full (out := [_])
      (n := (paired s.nibbleOrder (rest.map BitVec.toNat)).1.length)
      (by rw [List.length_singleton]; omega)
      (wrNib_appends_of_pending hpend · v) (wrNib_refused_of_pending hpend · v) ?_
    intro u hnib horder hu
    exact wrNibs_refused_of_idle rest u (by rw [hnib, nibPending_zero]) (by rwa [horder])

/-- The 16th color of a bundle whose block does not fit is refused (R76, R214). -/
theorem etcPut_refused {s : State} {hasAlpha : Bool} (hcnt : s.ebCnt = 15#4) (c : Color)
    (h : ¬ roomFor s ((flushed s).length + Config.etcBytes hasAlpha)) :
    etcPut hasAlpha c s = .refused .texoutFull := by
  have hlen : (Config.blockEncode hasAlpha (collect s c)).toList.length = Config.etcBytes hasAlpha :=
    Vector.length_toList
  have hne : (Config.blockEncode hasAlpha (collect s c)).toList ≠ [] := by
    apply List.ne_nil_of_length_pos
    rw [hlen]
    cases hasAlpha <;> decide
  -- The bundle is not part of what a stream write looks at.
  have hfull : ¬ roomFor (s.setEb (collect s c)) ((flushed (s.setEb (collect s c))).length +
      (Config.blockEncode hasAlpha (collect s c)).toList.length) := by
    rw [hlen]
    generalize collect s c = e
    exact h
  rw [etcPut_full hcnt, wrBytes_refused hne hfull, andThen_refused]

end Sys2Proof.Machine

namespace Sys2Proof.Proofs

open Sys2Proof.Machine Sys2Proof.Claims

/-- Settles O36: an append needs room for one byte, and a longer write is refused where its room ends. -/
theorem fullTexoutRefusesAnAppend : Obligations.FullTexoutRefusesAnAppend := by
  unfold Obligations.FullTexoutRefusesAnAppend
  refine ⟨fun b s hne => texAppend_appends ((roomFor_one_iff s).mpr hne) b,
    fun b s hfull => texAppend_full hfull b, ?bytes, ?packed, ?nibbles, ?bundle⟩
  case bytes =>
    intro s out hout hfull
    obtain ⟨f, hf⟩ := exists_formatCode_of_listed (wholeBytes · _) hout rfl rfl
    rw [hf] at hout
    obtain ⟨hne, hpixel⟩ := encodePixel_wholeBytes hout
    rw [exec_encpx hf, hpixel]
    exact wrBytes_refused (by simpa using hne) (by rwa [List.length_map])
  case packed =>
    intro s w hw hfull
    obtain ⟨f, hf⟩ := exists_formatCode_of_listed (packedWord · _) hw rfl rfl
    rw [hf] at hw
    rw [exec_encpx hf, encodePixel_packed hw]
    exact wrBytes_refused (List.cons_ne_nil _ _) hfull
  case nibbles =>
    intro s v hv hfull
    obtain ⟨f, hf⟩ := exists_formatCode_of_listed (nibblesOf · _) hv rfl rfl
    rw [hf] at hv
    obtain ⟨l, hne, rfl, hpixel⟩ := encodePixel_nibbles hv
    rw [exec_encpx hf, hpixel]
    exact wrNibs_refused hne hfull
  case bundle =>
    intro s hasAlpha hf hcnt hfull
    rw [exec_encpx_etc hf]
    exact etcPut_refused hcnt s.color hfull

end Sys2Proof.Proofs

/-! Decoding and encoding as inverses on whole pixels (R236): the bytes or nibbles that a decoded color is encoded to
are those it was decoded from. -/

namespace Sys2Proof.Machine

open Sys2Proof.Claims

/-! ### Commands in order -/

theorem runAll_cons (i : Instr) (rest : List Instr) (s : State) :
    runAll (i :: rest) s = andThen (exec i s) (runAll rest) := by
  rw [runAll]
  cases exec i s <;> rfl

theorem runAll_append (l l' : List Instr) (s : State) :
    runAll (l ++ l') s = andThen (runAll l s) (runAll l') := by
  induction l generalizing s with
  | nil => rfl
  | cons i rest ih =>
    rw [List.cons_append, runAll_cons, runAll_cons, andThen_assoc]
    exact congrArg _ (funext ih)

/-! ### Channels of a color -/

/-- The statements' colors are the model's (R12). -/
theorem append_eq_argb (a r g b : Byte) : a ++ r ++ g ++ b = argb a r g b := rfl

@[simp] theorem chanA_argb (a r g b : Byte) : chanA (argb a r g b) = a := by
  apply BitVec.eq_of_toNat_eq
  simp only [chanA_toNat, alpha, argb, toNat_append]
  omega

@[simp] theorem chanR_argb (a r g b : Byte) : chanR (argb a r g b) = r := by
  apply BitVec.eq_of_toNat_eq
  simp only [chanR_toNat, red, argb, toNat_append]
  omega

@[simp] theorem chanG_argb (a r g b : Byte) : chanG (argb a r g b) = g := by
  apply BitVec.eq_of_toNat_eq
  simp only [chanG_toNat, green, argb, toNat_append]
  omega

@[simp] theorem chanB_argb (a r g b : Byte) : chanB (argb a r g b) = b := by
  apply BitVec.eq_of_toNat_eq
  simp only [chanB_toNat, blue, argb, toNat_append]
  omega

/-! ### A field expanded and narrowed again (R211, R235) -/

@[simp] theorem narrow1_expand1 : ∀ v : BitVec 1, narrow1 (expand1 v) = v := by decide
@[simp] theorem narrow4_expand4 : ∀ v : Nibble, narrow4 (expand4 v) = v := by decide
@[simp] theorem narrow5_expand5 : ∀ v : BitVec 5, narrow5 (expand5 v) = v := by decide
@[simp] theorem narrow6_expand6 : ∀ v : BitVec 6, narrow6 (expand6 v) = v := by decide

/-- A packed word is its own fields, unpacked and packed again (R182, R222). -/
theorem pack5551_unpack5551 (w : BitVec 16) : pack5551 (unpack5551 w) = w := by
  have hw : w.toNat < 2 ^ 16 := w.isLt
  apply BitVec.eq_of_toNat_eq
  simp only [pack5551, unpack5551, chanA_argb, chanR_argb, chanG_argb, chanB_argb, narrow1_expand1,
    narrow5_expand5, toNat_append, toNat_field]
  omega

theorem pack565_unpack565 (w : BitVec 16) : pack565 (unpack565 w) = w := by
  have hw : w.toNat < 2 ^ 16 := w.isLt
  apply BitVec.eq_of_toNat_eq
  simp only [pack565, unpack565, chanR_argb, chanG_argb, chanB_argb, narrow5_expand5, narrow6_expand6,
    toNat_append, toNat_field]
  omega

/-! ### What a decoded color is encoded to -/

/-- The first `n` bytes from the cursor on. -/
def bytesFrom (s : State) (n : Nat) : List Byte := (List.range n).map (byteAt s)

/-- A color of a format made of whole bytes is encoded to the bytes it was made of. -/
theorem encodePixel_wholeByteColor {f : Format} {n : Nat} {c : Color} {s : State}
    (hc : wholeByteColor (formatCode f) (byteAt s) = some (n, c)) :
    0 < n ∧ n = roundTripBytes f ∧ encodePixel f c = wrBytes (bytesFrom s n) := by
  cases f
  case rgba8888 | rgb888 | la88 | hl88 | l8 | a8 =>
    obtain ⟨rfl, rfl⟩ : _ = n ∧ _ = c := by simpa [wholeByteColor, formatCode] using hc
    refine ⟨by decide, rfl, funext fun t => ?_⟩
    simp only [encodePixel, append_eq_argb, chanA_argb, chanR_argb, chanG_argb, chanB_argb]
    rfl
  -- No other format is made of whole bytes.
  all_goals simp [wholeByteColor, formatCode] at hc

/-- The color of a nibble format is encoded to the nibbles it was made of. -/
theorem encodePixel_nibbleColor {f : Format} {n : Nat} {c : Color} {v : Nat → Nat} (hv : ∀ k, v k < 16)
    (hc : nibbleColor (formatCode f) v = some (n, c)) :
    encodePixel f c = wrNibs ((List.range n).map fun k => BitVec.ofNat 4 (v k)) := by
  cases f
  case rgba4444 | la44 | l4 | a4 =>
    obtain ⟨rfl, rfl⟩ : _ = n ∧ _ = c := by simpa [nibbleColor, formatCode] using hc
    funext t
    simp only [encodePixel, ← expand4_ofNat (hv _), append_eq_argb, chanA_argb, chanR_argb, chanG_argb,
      chanB_argb, narrow4_expand4]
    rfl
  -- No other format is made of nibbles.
  all_goals simp [nibbleColor, formatCode] at hc

/-- Two nibbles of a byte make the byte again (R65). -/
theorem byteOf_freshNibble (s : State) (m : Nat) :
    byteOf s.nibbleOrder (freshNibble s (2 * m)) (freshNibble s (2 * m + 1)) = byteAt s m := by
  have hsplit : ∀ b : Byte, channel (16 * (b.toNat / 16) + b.toNat % 16) = b := by
    intro b
    rw [Nat.div_add_mod, channel_toNat]
  have heven : 2 * m / 2 = m := by omega
  have hodd : (2 * m + 1) / 2 = m := by omega
  unfold freshNibble byteOf
  cases s.nibbleOrder <;> simp [heven, hodd, hsplit]

/-- With nothing pending the stream's nibbles are the fresh ones (R72). -/
theorem streamNibble_of_idle {s : State} (h : inPending s = 0) (k : Nat) :
    streamNibble s k = freshNibble s k :=
  streamNibble_of_fresh (by omega)

/-! ### One round -/

/-- One DECPX and ENCPX: the pixel is decoded, and its color encoded where the output stands. -/
theorem runAll_round {s : State} {f : Format} {c : Color} {p : BitVec 32} {n nib : BitVec 8}
    {out : List Byte} (hf : s.fmt = formatCode f) (hin : hasInput f s = true)
    (hpixel : decodePixel f s = (c, s.setInput p n))
    (hout : ∃ t, encodePixel f c ((s.setInput p n).setColor c) = .next t ∧
      appends ((s.setInput p n).setColor c) t out nib) :
    ∃ t, runAll [.decpx, .encpx] s = .next t ∧ appends ((s.setInput p n).setColor c) t out nib := by
  have hdec : exec .decpx s = .next ((s.setInput p n).setColor c) := by
    rw [exec_decpx_of_hasInput hf hin, hpixel]
  obtain ⟨t, ht, happ⟩ := hout
  refine ⟨t, ?_, happ⟩
  rw [runAll_cons, hdec, andThen_next, runAll_cons,
    exec_encpx (s := (s.setInput p n).setColor c) (f := f) hf, State.setColor_color, ht]
  rfl

/-- What the law says of a state after some rounds (R236). -/
def roundTripped (s t : State) (n : Nat) : Prop :=
  t.inPtr = s.inPtr + BitVec.ofNat 32 n ∧ t.outLen = s.outLen + BitVec.ofNat 32 n ∧
    ∀ k, k < n → t.texout.read? (s.outLen.toNat + k) = some (byteAt s k)

/-- A round that appends the bytes it read is a round trip. -/
theorem roundTripped_of_appends {s t : State} {c : Color} {m : Nat} {n nib : BitVec 8}
    (h : appends ((s.setInput (s.inPtr + BitVec.ofNat 32 m) n).setColor c) t (bytesFrom s m) nib) :
    roundTripped s t m := by
  have hlen : (bytesFrom s m).length = m := by simp [bytesFrom]
  obtain ⟨ht, hnew, -⟩ := h
  refine ⟨by rw [ht]; rfl, by rw [ht, hlen]; rfl, fun k hk => ?_⟩
  have hbyte := hnew k (by rwa [hlen])
  simpa [bytesFrom] using hbyte

theorem nibPending_of_outPending {s : State} (h : outPending s = []) : nibPending s.outNib = false := by
  rw [← Bool.not_eq_true]
  intro hpend
  rw [outPending_of_pending hpend] at h
  cases h

/-- Whole bytes (R180, R181, R185 to R188, R220, R221, R225 to R228). -/
theorem exists_roundTrip_wholeBytes {s : State} {f : Format} {n : Nat} {c : Color}
    (hf : s.fmt = formatCode f) (hc : wholeByteColor (formatCode f) (byteAt s) = some (n, c))
    (hout : nibPending s.outNib = false) (hin : n ≤ available s) (hroom : roomFor s n) :
    ∃ t, runAll [.decpx, .encpx] s = .next t ∧ roundTripped s t n := by
  obtain ⟨-, -, henc⟩ := encodePixel_wholeByteColor hc
  obtain ⟨hhas, hpixel⟩ := decodePixel_wholeByte hc hin
  have hlen : (bytesFrom s n).length = n := by simp [bytesFrom]
  obtain ⟨t, ht, happ⟩ := runAll_round hf hhas hpixel
    (by rw [henc]; exact wrBytes_appends_of_idle hout (by rwa [hlen]))
  exact ⟨t, ht, roundTripped_of_appends happ⟩

/-- A 16-bit word is written as the bytes it was put together from (R71, R75). -/
theorem wrWord16_append (hi lo : Byte) : wrWord16 (hi ++ lo) = wrBytes [lo, hi] := by
  funext s
  rw [wrWord16_eq_wrBytes, BitVec.extractLsb'_append_eq_right, BitVec.extractLsb'_append_eq_left]

/-- Packed words (R182, R183, R222, R223). -/
theorem exists_roundTrip_packed {s : State} {f : Format} (hf : s.fmt = formatCode f)
    (h : f = .rgba5551 ∨ f = .rgb565) (hout : nibPending s.outNib = false)
    (hin : 2 ≤ available s) (hroom : roomFor s 2) :
    ∃ t, runAll [.decpx, .encpx] s = .next t ∧ roundTripped s t 2 := by
  obtain ⟨c, hhas, hpixel, henc⟩ : ∃ c, hasInput f s = true ∧
      decodePixel f s = (c, s.setInput (s.inPtr + 2#32) 0#8) ∧ encodePixel f c = wrBytes (bytesFrom s 2) := by
    have hword := rdWord16_eq hin
    rw [available_eq_avail] at hin
    rcases h with rfl | rfl
    · refine ⟨unpack5551 (byteAt s 1 ++ byteAt s 0), decide_eq_true hin, ?_, funext fun t => ?_⟩
      · simp only [decodePixel, hword]
      · rw [encodePixel, pack5551_unpack5551, wrWord16_append]
        rfl
    · refine ⟨unpack565 (byteAt s 1 ++ byteAt s 0), decide_eq_true hin, ?_, funext fun t => ?_⟩
      · simp only [decodePixel, hword]
      · rw [encodePixel, pack565_unpack565, wrWord16_append]
        rfl
  have hlen : (bytesFrom s 2).length = 2 := rfl
  obtain ⟨t, ht, happ⟩ := runAll_round hf hhas hpixel
    (by rw [henc]; exact wrBytes_appends_of_idle hout (by rwa [hlen]))
  exact ⟨t, ht, roundTripped_of_appends happ⟩

/-- The fresh nibbles of some bytes are paired to the bytes again (R65, R74). -/
theorem paired_freshNibble (s : State) (j m : Nat) :
    paired s.nibbleOrder ((List.range' (2 * j) (2 * m)).map (freshNibble s)) =
      ((List.range' j m).map (byteAt s), 0#8) := by
  induction m generalizing j with
  | zero => rfl
  | succ m ih =>
    have hnibbles : List.range' (2 * j) (2 * (m + 1)) =
        2 * j :: (2 * j + 1) :: List.range' (2 * (j + 1)) (2 * m) := rfl
    rw [hnibbles, List.map_cons, List.map_cons, paired, byteOf_freshNibble, ih]
    rfl

/-- Nibbles that fill whole bytes (R184, R189, R224, R229). -/
theorem exists_roundTrip_nibbles {s : State} {f : Format} {m : Nat} {c : Color}
    (hf : s.fmt = formatCode f) (hc : nibbleColor (formatCode f) (streamNibble s) = some (2 * m, c))
    (hm : 0 < m) (hpend : inPending s = 0) (hout : nibPending s.outNib = false) (hin : m ≤ available s)
    (hroom : roomFor s m) : ∃ t, runAll [.decpx, .encpx] s = .next t ∧ roundTripped s t m := by
  have henc := encodePixel_nibbleColor (streamNibble_lt s) hc
  obtain ⟨hhas, hpixel⟩ := decodePixel_nibbles hc (by omega)
  rw [afterNibbles_of_even (m := m) (by omega)] at hpixel
  have hpaired : paired s.nibbleOrder
      (((List.range (2 * m)).map fun k => BitVec.ofNat 4 (streamNibble s k)).map BitVec.toNat) =
        (bytesFrom s m, 0#8) := by
    have hnibbles : ((List.range (2 * m)).map fun k => BitVec.ofNat 4 (streamNibble s k)).map BitVec.toNat =
        (List.range (2 * m)).map (freshNibble s) := by
      rw [List.map_map]
      refine List.map_congr_left fun k _ => ?_
      rw [Function.comp_apply, streamNibble_of_idle hpend, BitVec.toNat_ofNat,
        Nat.mod_eq_of_lt (freshNibble_lt s k)]
    rw [hnibbles, List.range_eq_range', bytesFrom, List.range_eq_range']
    exact paired_freshNibble s 0 m
  have hlen : (bytesFrom s m).length = m := by simp [bytesFrom]
  have hout' := wrNibs_appends_of_idle ((List.range (2 * m)).map fun k => BitVec.ofNat 4 (streamNibble s k))
    ((s.setInput (s.inPtr + BitVec.ofNat 32 m) 0#8).setColor c) hout
    (fun hnil => by simp at hnil; omega)
  rw [State.setColor_nibbleOrder, State.setInput_nibbleOrder, hpaired, hlen, ← henc] at hout'
  obtain ⟨t, ht, happ⟩ := runAll_round hf hhas hpixel (hout' hroom)
  exact ⟨t, ht, roundTripped_of_appends happ⟩

/-! ### Two rounds -/

/-- A round of L4 or A4 moves one nibble from the input to the output (R190, R191, R230, R231). -/
theorem runAll_round_halfByte {s : State} {f : Format} {out : List Byte} {nib : BitVec 8}
    (hf : s.fmt = formatCode f) (h : f = .l4 ∨ f = .a4) (hin : 1 ≤ inPending s + 2 * available s)
    (hwrite : ∀ u, u.outNib = s.outNib → u.nibbleOrder = s.nibbleOrder → u.outLen = s.outLen →
      ∃ t, wrNib (BitVec.ofNat 4 (streamNibble s 0)) u = .next t ∧ appends u t out nib) :
    ∃ c t, runAll [.decpx, .encpx] s = .next t ∧
      appends ((s.setInput (afterNibbles s 1).1 (afterNibbles s 1).2).setColor c) t out nib := by
  obtain ⟨c, hc⟩ : ∃ c, nibbleColor (formatCode f) (streamNibble s) = some (1, c) := by
    rcases h with rfl | rfl <;> exact ⟨_, rfl⟩
  obtain ⟨hhas, hpixel⟩ := decodePixel_nibbles hc hin
  obtain ⟨t, ht, happ⟩ := hwrite ((s.setInput (afterNibbles s 1).1 (afterNibbles s 1).2).setColor c) rfl rfl rfl
  refine ⟨c, runAll_round hf hhas hpixel ⟨t, ?_, happ⟩⟩
  rw [encodePixel_nibbleColor (streamNibble_lt s) hc]
  exact andThen_eq_next.mpr ⟨t, ht, rfl⟩

/-- L4 and A4: the first round leaves a nibble pending on both sides, and the second makes the byte of both. -/
theorem exists_roundTrip_halfByte {s : State} {f : Format} (hf : s.fmt = formatCode f)
    (h : f = .l4 ∨ f = .a4) (hpend : inPending s = 0) (hout : nibPending s.outNib = false)
    (hin : 1 ≤ available s) (hroom : roomFor s 1) :
    ∃ t, runAll [.decpx, .encpx, .decpx, .encpx] s = .next t ∧ roundTripped s t 1 := by
  -- The first round.
  obtain ⟨c, u, hfirst, hu⟩ := runAll_round_halfByte (out := [])
    (nib := nibHolding (BitVec.ofNat 4 (streamNibble s 0))) hf h (by omega) fun u hnib _ _ =>
      ⟨_, wrNib_first (by rw [hnib, hout]) _, appends_setOutNib (appends_nil u) _⟩
  rw [afterNibbles_of_odd (m := 0) (by omega)] at hu
  obtain ⟨hlen, hnib, horder⟩ := appends_fields hu
  obtain ⟨hstate, -, -⟩ := hu
  have hfmt : u.fmt = formatCode f := by rw [hstate]; exact hf
  have hinNib : u.inNib = nibHolding (BitVec.ofNat 4 (freshNibble s (2 * 0 + 1))) := by rw [hstate]; rfl
  have hinPtr : u.inPtr = s.inPtr + 1#32 := by rw [hstate]; rfl
  have hheld : inPending u = 1 := inPending_eq_one.mpr (by rw [hinNib, nibPending_holding])
  have hsecond : BitVec.ofNat 4 (streamNibble u 0) = BitVec.ofNat 4 (freshNibble s 1) := by
    rw [streamNibble, if_pos hheld, if_pos rfl, ← nibValue_eq_ofNat, hinNib, nibValue_holding]
  have houtLen : u.outLen = s.outLen := hlen.trans (BitVec.add_zero _)
  -- The second round.
  have hbyte : byteOf s.nibbleOrder (BitVec.ofNat 4 (streamNibble s 0)).toNat
      (BitVec.ofNat 4 (streamNibble u 0)).toNat = byteAt s 0 := by
    rw [hsecond, streamNibble_of_idle hpend, BitVec.toNat_ofNat, BitVec.toNat_ofNat,
      Nat.mod_eq_of_lt (freshNibble_lt s 0), Nat.mod_eq_of_lt (freshNibble_lt s 1)]
    exact byteOf_freshNibble s 0
  obtain ⟨c', t, hagain, ht⟩ := runAll_round_halfByte (s := u) (out := [byteAt s 0]) (nib := 0#8) hfmt h
    (by omega) fun v hvnib hvorder hvlen => by
      have hwrite := wrNib_appends_of_pending (s := v) (by rw [hvnib, hnib, nibPending_holding])
        (by rwa [roomFor, hvlen, houtLen]) (BitVec.ofNat 4 (streamNibble u 0))
      rwa [hvnib, hnib, nibValue_holding, hvorder, horder, State.setColor_nibbleOrder,
        State.setInput_nibbleOrder, hbyte] at hwrite
  rw [afterNibbles_of_even (m := 0) (by omega)] at ht
  obtain ⟨ht, hnew, -⟩ := ht
  refine ⟨t, ?_, ?inPtr, ?outLen, fun k hk => ?byte⟩
  · rw [show [Instr.decpx, .encpx, .decpx, .encpx] = [.decpx, .encpx] ++ [.decpx, .encpx] from rfl,
      runAll_append, hfirst, andThen_next, hagain]
  case inPtr =>
    rw [ht, ← hinPtr]
    exact BitVec.add_zero _
  case outLen =>
    rw [ht, ← houtLen]
    rfl
  case byte =>
    obtain rfl : k = 0 := by omega
    rw [← houtLen]
    exact hnew 0 Nat.zero_lt_one

end Sys2Proof.Machine

namespace Sys2Proof.Proofs

open Sys2Proof.Machine Sys2Proof.Claims

/-- Settles O53: a decoded color is encoded to the bytes, or to the nibbles of the bytes, that it was made of. -/
theorem decodeThenEncodeGivesTheBytesBack : Obligations.DecodeThenEncodeGivesTheBytesBack := by
  unfold Obligations.DecodeThenEncodeGivesTheBytesBack
  intro s f hf hetc1 hetc1a4 hpend hout hin hroom
  have hidle := nibPending_of_outPending hout
  cases f with
  | rgba8888 | rgb888 | la88 | hl88 | l8 | a8 =>
    exact exists_roundTrip_wholeBytes hf rfl hidle hin hroom
  | rgba5551 => exact exists_roundTrip_packed hf (.inl rfl) hidle hin hroom
  | rgb565 => exact exists_roundTrip_packed hf (.inr rfl) hidle hin hroom
  | rgba4444 => exact exists_roundTrip_nibbles (m := 2) hf rfl (by decide) hpend hidle hin hroom
  | la44 => exact exists_roundTrip_nibbles (m := 1) hf rfl (by decide) hpend hidle hin hroom
  | l4 => exact exists_roundTrip_halfByte hf (.inl rfl) hpend hidle hin hroom
  | a4 => exact exists_roundTrip_halfByte hf (.inr rfl) hpend hidle hin hroom
  | etc1 => exact absurd rfl hetc1
  | etc1a4 => exact absurd rfl hetc1a4

end Sys2Proof.Proofs

/-! Where the input stands after some pixels of a stream that starts at byte 0 (R86, R136, R170 to R193): the cursor,
the pending nibble and the bundle, format by format, and what the next pixel is. -/

namespace Sys2Proof.Machine

open Sys2Proof.Claims

/-! ### The position -/

/-- The formats whose pixels are whole bytes: a pixel has bits / 8 of them (R104). -/
def byteAligned (f : Format) : Bool :=
  match f with
  | .l4 | .a4 | .etc1 | .etc1a4 => false
  | _ => true

/-- The colors of block `b` of the stream (R173). -/
def blockAt (s : State) (hasAlpha : Bool) (b : Nat) : Bundle :=
  Config.blockDecode hasAlpha
    (Vector.ofFn fun k => texRead s (b * Config.etcBytes hasAlpha + k.val))

/-- The pending nibble after `i` pixels of half a byte (R72). -/
def nibbleAfter (s : State) (i : Nat) : BitVec 8 :=
  if i % 2 = 1 then nibHolding (BitVec.ofNat 4 (texinNibble s i)) else 0#8

/-- `i` pixels of whole bytes have been read. -/
structure AfterBytes (f : Format) (s : State) (i : Nat) : Prop where
  inPtr : s.inPtr.toNat = bitsPerPixel f / 8 * i
  inNib : s.inNib = 0#8
  bqCnt : s.bqCnt = 0#5

/-- `i` pixels of half a byte have been read. -/
structure AfterNibbles (s : State) (i : Nat) : Prop where
  inPtr : s.inPtr.toNat = (i + 1) / 2
  inNib : s.inNib = nibbleAfter s i
  bqCnt : s.bqCnt = 0#5

/-- `i` pixels of blocks have been read; the bundle holds the rest of the last block. -/
structure AfterBlocks (hasAlpha : Bool) (s : State) (i : Nat) : Prop where
  inPtr : s.inPtr.toNat = (i + 15) / 16 * Config.etcBytes hasAlpha
  inNib : s.inNib = 0#8
  bqCnt : s.bqCnt.toNat = (16 - i % 16) % 16
  bq : i % 16 ≠ 0 → s.bq = blockAt s hasAlpha (i / 16)

/-- `i` pixels of the stream have been read. -/
def AtPixel (f : Format) (s : State) (i : Nat) : Prop :=
  match f with
  | .l4 | .a4 => AfterNibbles s i
  | .etc1 => AfterBlocks false s i
  | .etc1a4 => AfterBlocks true s i
  | _ => AfterBytes f s i

theorem atPixel_iff_of_byteAligned {f : Format} (h : byteAligned f = true) (s : State) (i : Nat) :
    AtPixel f s i ↔ AfterBytes f s i := by
  cases f
  case l4 | a4 | etc1 | etc1a4 => cases h
  all_goals exact Iff.rfl

/-- Two states with the same input side. -/
structure SameInput (s t : State) : Prop where
  texin : t.texin = s.texin
  nibbleOrder : t.nibbleOrder = s.nibbleOrder
  inPtr : t.inPtr = s.inPtr
  inNib : t.inNib = s.inNib
  bqCnt : t.bqCnt = s.bqCnt
  bq : t.bq = s.bq

/-- The fresh nibbles from a place in TEXIN depend on TEXIN and the parameter only (R65). -/
theorem texinNibble_congr {s t : State} (htexin : t.texin = s.texin)
    (horder : t.nibbleOrder = s.nibbleOrder) (i : Nat) : texinNibble t i = texinNibble s i := by
  simp only [texinNibble, freshNibble, byteAt, texRead, htexin, horder]

theorem blockAt_congr {s t : State} (htexin : t.texin = s.texin) (hasAlpha : Bool) (b : Nat) :
    blockAt t hasAlpha b = blockAt s hasAlpha b := by
  simp only [blockAt, texRead_congr htexin]

/-- The position depends on the input side only. -/
theorem AtPixel.of_sameInput {f : Format} {s t : State} {i : Nat} (h : AtPixel f s i)
    (hst : SameInput s t) : AtPixel f t i := by
  have nibbles (h : AfterNibbles s i) : AfterNibbles t i :=
    ⟨by rw [hst.inPtr, h.inPtr],
      by rw [hst.inNib, h.inNib, nibbleAfter, nibbleAfter, texinNibble_congr hst.texin hst.nibbleOrder],
      by rw [hst.bqCnt, h.bqCnt]⟩
  have blocks {a : Bool} (h : AfterBlocks a s i) : AfterBlocks a t i :=
    ⟨by rw [hst.inPtr, h.inPtr], by rw [hst.inNib, h.inNib], by rw [hst.bqCnt, h.bqCnt],
      fun hi => by rw [hst.bq, h.bq hi, blockAt_congr hst.texin]⟩
  have bytes (h : AfterBytes f s i) : AfterBytes f t i :=
    ⟨by rw [hst.inPtr, h.inPtr], by rw [hst.inNib, h.inNib], by rw [hst.bqCnt, h.bqCnt]⟩
  cases f
  case l4 | a4 => exact nibbles h
  case etc1 | etc1a4 => exact blocks h
  all_goals exact bytes h

/-- The rewound input stands before pixel 0 (R136). -/
theorem atPixel_rewindInput (f : Format) (s : State) : AtPixel f (rewindInput s) 0 := by
  cases f
  case etc1 | etc1a4 => exact ⟨(Nat.zero_mul _).symm, rfl, rfl, fun h => absurd rfl h⟩
  all_goals exact ⟨rfl, rfl, rfl⟩

/-! ### Whether there is a next pixel -/

theorem pendingNibbles_zero {s : State} (h : s.inNib = 0#8) : pendingNibbles s = 0 := by
  rw [pendingNibbles, h]
  rfl

theorem pendingNibbles_nibbleAfter {s : State} {i : Nat} (h : s.inNib = nibbleAfter s i) :
    pendingNibbles s = i % 2 := by
  rw [pendingNibbles, h, nibbleAfter]
  rcases Nat.mod_two_eq_zero_or_one i with hi | hi <;> simp [hi]

/-- A bundle holds another color, or the input another block, exactly while the blocks hold another pixel. -/
theorem AfterBlocks.hasPixel_iff {a : Bool} {s : State} {i : Nat} (h : AfterBlocks a s i)
    (hi : i ≤ 16 * (s.inLen.toNat / Config.etcBytes a)) :
    (0 < s.bqCnt.toNat ∨ Config.etcBytes a ≤ avail s) ↔
      i < 16 * (s.inLen.toNat / Config.etcBytes a) := by
  have hn : 0 < Config.etcBytes a := by cases a <;> decide
  have hcnt := h.bqCnt
  by_cases hmod : i % 16 = 0
  case pos =>
    have hblock : i / 16 + 1 ≤ s.inLen.toNat / Config.etcBytes a ↔
        (i / 16 + 1) * Config.etcBytes a ≤ s.inLen.toNat := Nat.le_div_iff_mul_le hn
    have hptr : s.inPtr.toNat = i / 16 * Config.etcBytes a := by
      rw [h.inPtr]
      congr 1
      omega
    rw [Nat.succ_mul] at hblock
    rw [avail, hptr]
    omega
  case neg => omega

/-- The input holds another pixel exactly while fewer have been read than it holds (R171, R284). -/
theorem AtPixel.hasInput_iff {f : Format} {s : State} {i : Nat} (h : AtPixel f s i)
    (hi : i ≤ pixelsHeld f s.inLen.toNat) : hasInput f s = true ↔ i < pixelsHeld f s.inLen.toNat := by
  cases f
  case l4 | a4 =>
    have hptr := h.inPtr
    have hpend := pendingNibbles_nibbleAfter h.inNib
    simp only [pixelsHeld, bitsPerPixel] at hi ⊢
    simp only [hasInput, avail, hptr, hpend, decide_eq_true_eq]
    omega
  case etc1 | etc1a4 => exact decide_eq_true_iff.trans (AfterBlocks.hasPixel_iff h hi)
  all_goals
    have hptr := h.inPtr
    have hpend := pendingNibbles_zero h.inNib
    simp only [pixelsHeld, bitsPerPixel] at hptr hi ⊢
    simp only [hasInput, avail, hptr, hpend, decide_eq_true_eq]
    omega

/-! ### The next pixel -/

/-- Two states in which the next bytes and nibbles are the same. -/
structure SameCursor (s t : State) : Prop where
  texin : t.texin = s.texin
  nibbleOrder : t.nibbleOrder = s.nibbleOrder
  inPtr : t.inPtr = s.inPtr
  inNib : t.inNib = s.inNib

theorem SameCursor.rdByte {s t : State} (h : SameCursor s t) :
    (rdByte t).1 = (rdByte s).1 ∧ SameCursor (rdByte s).2 (rdByte t).2 := by
  refine ⟨?_, h.texin, h.nibbleOrder, ?_, rfl⟩
  · simp only [Machine.rdByte, texRead_congr h.texin, h.inPtr]
  · simp only [Machine.rdByte, State.setInput_inPtr, h.inPtr]

theorem SameCursor.rdNib {s t : State} (h : SameCursor s t) :
    (rdNib t).1 = (rdNib s).1 ∧ SameCursor (rdNib s).2 (rdNib t).2 := by
  rw [rdNib_eq, rdNib_eq, h.inNib]
  split
  · exact ⟨rfl, h.texin, h.nibbleOrder, h.inPtr, rfl⟩
  · simp only [texRead_congr h.texin, h.inPtr, h.nibbleOrder, true_and]
    exact ⟨h.texin, h.nibbleOrder, rfl, rfl⟩

/-- The color of a pixel that comes from no bundle depends on the bytes from the cursor on (R170). -/
theorem SameCursor.decodePixel_color {f : Format} (hf : byteAligned f = true) {s t : State}
    (h : SameCursor s t) : (decodePixel f t).1 = (decodePixel f s).1 := by
  obtain ⟨byte0, h1⟩ := h.rdByte
  obtain ⟨byte1, h2⟩ := h1.rdByte
  obtain ⟨byte2, h3⟩ := h2.rdByte
  obtain ⟨byte3, -⟩ := h3.rdByte
  obtain ⟨nib0, n1⟩ := h.rdNib
  obtain ⟨nib1, n2⟩ := n1.rdNib
  obtain ⟨nib2, n3⟩ := n2.rdNib
  obtain ⟨nib3, -⟩ := n3.rdNib
  cases f
  case l4 | a4 | etc1 | etc1a4 => cases hf
  case rgba4444 | la44 => simp only [decodePixel, nib0, nib1, nib2, nib3]
  all_goals simp only [decodePixel, rdWord16, byte0, byte1, byte2, byte3]

/-- A pixel of whole bytes leaves the cursor after them. -/
theorem decodePixel_of_byteAligned {f : Format} (hf : byteAligned f = true) {s : State}
    (hpend : inPending s = 0) (hin : bitsPerPixel f / 8 ≤ available s) :
    (decodePixel f s).2 = s.setInput (s.inPtr + BitVec.ofNat 32 (bitsPerPixel f / 8)) 0#8 := by
  have nibbles {n : Nat} (m : Nat) {c : Color} (hn : n = 2 * m)
      (hc : nibbleColor (formatCode f) (streamNibble s) = some (n, c)) (hm : m ≤ available s) :
      (decodePixel f s).2 = s.setInput (s.inPtr + BitVec.ofNat 32 m) 0#8 := by
    rw [(decodePixel_nibbles hc (by omega)).2, afterNibbles_of_even (m := m) (by omega)]
  cases f
  case l4 | a4 | etc1 | etc1a4 => cases hf
  case rgba5551 | rgb565 => exact congrArg Prod.snd (decodePixel_packed rfl hin).2
  case rgba4444 => exact nibbles 2 rfl rfl hin
  case la44 => exact nibbles 1 rfl rfl hin
  all_goals exact congrArg Prod.snd (decodePixel_wholeByte rfl hin).2

/-- The color of pixel `i` depends on TEXIN and the parameter only (R86). -/
theorem streamColor_congr {s t : State} (htexin : t.texin = s.texin)
    (horder : t.nibbleOrder = s.nibbleOrder) (f : Format) (i : Nat) :
    streamColor t f i = streamColor s f i := by
  have hnib := texinNibble_congr htexin horder i
  have hblock : ∀ a, blockColor t a i = blockColor s a i := by
    intro a
    simp only [blockColor, texRead_congr htexin]
  cases f
  case l4 | a4 => simp only [streamColor, hnib]
  case etc1 | etc1a4 => simp only [streamColor, hblock]
  all_goals exact SameCursor.decodePixel_color rfl ⟨htexin, horder, rfl, rfl⟩

/-- A cursor that moves inside the input does not wrap (R31). -/
theorem inPtr_add_toNat_of_le {s : State} {k : Nat} (hk : k ≤ available s) :
    (s.inPtr + BitVec.ofNat 32 k).toNat = s.inPtr.toNat + k := by
  have hlen : s.inLen.toNat < 2 ^ 32 := s.inLen.isLt
  have hptr : s.inPtr.toNat < 2 ^ 32 := s.inPtr.isLt
  rw [available_eq_avail, avail] at hk
  rw [BitVec.toNat_add, BitVec.toNat_ofNat]
  omega

theorem streamColor_of_byteAligned {f : Format} (hf : byteAligned f = true) (s : State) (i : Nat) :
    streamColor s f i =
      (decodePixel f { s with inPtr := BitVec.ofNat 32 (bitsPerPixel f / 8 * i), inNib := 0#8 }).1 := by
  cases f
  case l4 | a4 | etc1 | etc1a4 => cases hf
  all_goals rfl

/-- The next pixel of whole bytes (R86). -/
theorem AfterBytes.decodePixel {f : Format} (hf : byteAligned f = true) {s : State} {i : Nat}
    (h : AfterBytes f s i) (hin : bitsPerPixel f / 8 ≤ available s) :
    (decodePixel f s).1 = streamColor s f i ∧ AfterBytes f (decodePixel f s).2 (i + 1) := by
  have hptr : s.inPtr = BitVec.ofNat 32 (bitsPerPixel f / 8 * i) := by
    rw [← h.inPtr, BitVec.ofNat_toNat, BitVec.setWidth_eq]
  have hpend : inPending s = 0 := by
    rw [inPending_eq_pendingNibbles, pendingNibbles_zero h.inNib]
  constructor
  · rw [streamColor_of_byteAligned hf]
    exact SameCursor.decodePixel_color hf ⟨rfl, rfl, hptr, h.inNib⟩
  · rw [decodePixel_of_byteAligned hf hpend hin]
    refine ⟨?_, rfl, h.bqCnt⟩
    rw [State.setInput_inPtr, inPtr_add_toNat_of_le hin, h.inPtr, Nat.mul_succ]

/-- The nibbles of the byte at the cursor, by their places in TEXIN (R65). -/
theorem texinNibble_of_even {s : State} {i : Nat} (hi : i % 2 = 0) (hptr : s.inPtr.toNat = i / 2) :
    texinNibble s i = freshNibble s 0 ∧ texinNibble s (i + 1) = freshNibble s 1 := by
  have hsame : { s with inPtr := BitVec.ofNat 32 (i / 2) } = s := by
    rw [← hptr, BitVec.ofNat_toNat, BitVec.setWidth_eq]
  have hhalf : (i + 1) / 2 = i / 2 := by omega
  have hodd : (i + 1) % 2 = 1 := by omega
  rw [texinNibble, texinNibble, hhalf, hodd, hi, hsame]
  exact ⟨rfl, rfl⟩

/-- The nibble that a half-byte pixel reads is the one the statements name (R65, R72). -/
theorem AfterNibbles.streamNibble {s : State} {i : Nat} (h : AfterNibbles s i) :
    streamNibble s 0 = texinNibble s i := by
  have hpend := (inPending_eq_pendingNibbles s).trans (pendingNibbles_nibbleAfter h.inNib)
  rcases Nat.mod_two_eq_zero_or_one i with heven | hodd
  · have hptr : s.inPtr.toNat = i / 2 := by rw [h.inPtr]; omega
    rw [streamNibble_of_idle (hpend.trans heven), (texinNibble_of_even heven hptr).1]
  · have hheld : s.inNib = nibHolding (BitVec.ofNat 4 (texinNibble s i)) := h.inNib.trans (if_pos hodd)
    have hlt : texinNibble s i < 16 := freshNibble_lt _ _
    rw [Claims.streamNibble, if_pos (hpend.trans hodd), if_pos rfl, ← nibValue_toNat, hheld,
      nibValue_holding, BitVec.toNat_ofNat, Nat.mod_eq_of_lt hlt]

/-- The cursor after one more nibble. -/
theorem AfterNibbles.next {s : State} {i : Nat} (h : AfterNibbles s i)
    (hin : 1 ≤ inPending s + 2 * available s) :
    AfterNibbles (s.setInput (afterNibbles s 1).1 (afterNibbles s 1).2) (i + 1) := by
  have hpend := (inPending_eq_pendingNibbles s).trans (pendingNibbles_nibbleAfter h.inNib)
  have hptr := h.inPtr
  rcases Nat.mod_two_eq_zero_or_one i with heven | hodd
  · rw [afterNibbles_of_odd (m := 0) (by omega)]
    refine ⟨?_, ?_, h.bqCnt⟩
    · rw [State.setInput_inPtr, inPtr_add_toNat_of_le (by omega), hptr]
      omega
    · have hnext : (i + 1) % 2 = 1 := by omega
      rw [State.setInput_inNib, nibbleAfter, if_pos hnext,
        texinNibble_congr (State.setInput_texin s _ _) (State.setInput_nibbleOrder s _ _),
        (texinNibble_of_even heven (hptr.trans (by omega))).2]
  · rw [afterNibbles_of_even (m := 0) (by omega)]
    refine ⟨?_, ?_, h.bqCnt⟩
    · rw [State.setInput_inPtr, inPtr_add_toNat_of_le (Nat.zero_le _), hptr]
      omega
    · have hnext : ¬ (i + 1) % 2 = 1 := by omega
      rw [State.setInput_inNib, nibbleAfter, if_neg hnext]

/-- The next pixel of half a byte (R190, R191). -/
theorem AfterNibbles.decodePixel {f : Format} (hf : f = .l4 ∨ f = .a4) {s : State} {i : Nat}
    (h : AfterNibbles s i) (hin : 1 ≤ inPending s + 2 * available s) :
    (decodePixel f s).1 = streamColor s f i ∧ AfterNibbles (decodePixel f s).2 (i + 1) := by
  have hnext := h.next hin
  have hnib := h.streamNibble
  rcases hf with rfl | rfl
  all_goals
    rw [(decodePixel_nibbles rfl hin).2]
    simp only [hnib]
    exact ⟨rfl, hnext⟩

theorem blockColor_eq (s : State) (a : Bool) (i : Nat) :
    blockColor s a i = (blockAt s a (i / 16))[i % 16]'(Nat.mod_lt i (by decide)) := rfl

/-- The block at the cursor (R173). -/
theorem blockAt_of_inPtr {s : State} {a : Bool} {b : Nat}
    (hptr : s.inPtr.toNat = b * Config.etcBytes a) :
    Config.blockDecode a (Vector.ofFn fun k => byteAt s k.val) = blockAt s a b := by
  simp only [blockAt, byteAt, hptr]

/-- The next pixel of a block: the first color of the next block, or one more of the last (R173). -/
theorem AfterBlocks.etcNext {a : Bool} {s : State} {i : Nat} (h : AfterBlocks a s i)
    (hin : 0 < s.bqCnt.toNat ∨ Config.etcBytes a ≤ available s) :
    (etcNext a s).1 = blockColor s a i ∧ AfterBlocks a (etcNext a s).2 (i + 1) := by
  have hcnt := h.bqCnt
  have hptr := h.inPtr
  have hcolor := blockColor_eq s a i
  by_cases hmod : i % 16 = 0
  case pos =>
    have hempty : s.bqCnt = 0#5 := BitVec.eq_of_toNat_eq (by rw [hcnt, hmod]; rfl)
    have hblock : (i + 15) / 16 = i / 16 := by omega
    rw [hblock] at hptr
    have hsame : (i + 1) / 16 = i / 16 := by omega
    have hbytes : Config.etcBytes a ≤ available s := hin.resolve_left (by omega)
    rw [etcNext_refill hempty a rfl, blockAt_of_inPtr hptr]
    refine ⟨?_, ?_, rfl, ?_, fun _ => ?_⟩
    · simp only [hcolor, hmod]
    · have hround : (i + 1 + 15) / 16 = i / 16 + 1 := by omega
      rw [inPtr_add_toNat_of_le hbytes, hptr, hround, Nat.succ_mul]
    · have hnext : (i + 1) % 16 = 1 := by omega
      rw [hnext]
      rfl
    · rw [hsame]
      rfl
  case neg =>
    have hne : s.bqCnt ≠ 0#5 := by
      intro h0
      rw [h0] at hcnt
      simp at hcnt
      omega
    have hle : 1#5 ≤ s.bqCnt := by rw [BitVec.le_def]; simp; omega
    rw [etcNext_pending hne, nextOfBundle_eq (by omega)]
    refine ⟨?_, ?_, h.inNib, ?_, fun hnext => ?_⟩
    · have hentry : 16 - s.bqCnt.toNat = i % 16 := by omega
      simp only [hcolor, h.bq hmod, hentry]
    · rw [State.setBqCnt_inPtr, hptr]
      congr 1
      omega
    · rw [State.setBqCnt_bqCnt, BitVec.toNat_sub_of_le hle, hcnt]
      simp
      omega
    · have hsame : (i + 1) / 16 = i / 16 := by omega
      rw [State.setBqCnt_bq, h.bq hmod, hsame]
      rfl

/-- The next pixel is the next color of the stream (R86, R170). -/
theorem AtPixel.decodePixel {f : Format} {s : State} {i : Nat} (h : AtPixel f s i)
    (hi : i < pixelsHeld f s.inLen.toNat) :
    (decodePixel f s).1 = streamColor s f i ∧ AtPixel f (decodePixel f s).2 (i + 1) := by
  have hin := (h.hasInput_iff hi.le).mpr hi
  have bytes (hf : byteAligned f = true) (hle : bitsPerPixel f / 8 ≤ avail s) :
      (Machine.decodePixel f s).1 = streamColor s f i ∧ AtPixel f (Machine.decodePixel f s).2 (i + 1) := by
    rw [atPixel_iff_of_byteAligned hf] at h ⊢
    exact h.decodePixel hf (by rwa [available_eq_avail])
  have hpend := inPending_eq_pendingNibbles s
  have havail := available_eq_avail s
  cases f
  case l4 => exact AfterNibbles.decodePixel (.inl rfl) h (by rw [hpend, havail]; exact of_decide_eq_true hin)
  case a4 => exact AfterNibbles.decodePixel (.inr rfl) h (by rw [hpend, havail]; exact of_decide_eq_true hin)
  case etc1 =>
    obtain ⟨hcolor, hnext⟩ := AfterBlocks.etcNext h (by rw [havail]; exact of_decide_eq_true hin)
    rw [decodePixel_etc1, hcolor]
    exact ⟨rfl, hnext⟩
  case etc1a4 =>
    rw [decodePixel_etc1a4]
    exact AfterBlocks.etcNext h (by rw [havail]; exact of_decide_eq_true hin)
  case rgba4444 | la44 =>
    have hzero := pendingNibbles_zero h.inNib
    have hle := of_decide_eq_true hin
    exact bytes rfl (by simp only [bitsPerPixel]; omega)
  all_goals exact bytes rfl (of_decide_eq_true hin)

end Sys2Proof.Machine

/-! LOAD pixel by pixel (R280 to R284): what holds after `i` pixels of a load, whether LOAD's own loop or the single
steps have come so far, and where it ends. -/

namespace Sys2Proof.Machine

open Sys2Proof.Claims

/-! ### Pixels of the buffer and words of PIX -/

/-- No two pixels of the buffer share a word of PIX (R62). -/
theorem address_inj {s : State} {xy xy' : Nat × Nat} (h : inside s xy) (h' : inside s xy')
    (heq : address s xy = address s xy') : xy = xy' := by
  obtain ⟨hx, -⟩ := h
  obtain ⟨hx', -⟩ := h'
  have hrow := congrArg (· / s.width.toNat) heq
  have hcol := congrArg (· % s.width.toNat) heq
  have hpos : 0 < s.width.toNat := by omega
  simp only [address, Nat.mul_comm _ s.width.toNat, Nat.mul_add_div hpos, Nat.div_eq_of_lt hx,
    Nat.div_eq_of_lt hx', Nat.add_zero] at hrow
  simp only [address, Nat.mul_comm _ s.width.toNat, Nat.mul_add_mod, Nat.mod_eq_of_lt hx,
    Nat.mod_eq_of_lt hx'] at hcol
  exact Prod.ext hcol hrow

/-- The picture after the first `i` pixels of the stream have been stored (R280). -/
def painted (s : State) (f : Format) (o : Orientation) : Nat → Memory 32
  | 0 => s.pix
  | i + 1 =>
    if inside s (coordinate s o i) then
      (painted s f o i).write (address s (coordinate s o i)) (streamColor s f i)
    else painted s f o i

/-- A pixel that has been stored holds its color: no later index has the same pixel (R251). -/
theorem read?_painted {s : State} (hdims : s.legalDims) (f : Format) (o : Orientation) {i n : Nat}
    (hi : i < n) (hin : inside s (coordinate s o i)) :
    (painted s f o n).read? (address s (coordinate s o i)) = some (streamColor s f i) := by
  induction n with
  | zero => exact absurd hi (Nat.not_lt_zero i)
  | succ n ih =>
    rw [painted]
    by_cases hlast : i = n
    case pos =>
      subst hlast
      rw [if_pos hin, Memory.read?_write_same]
    case neg =>
      have hold := ih (by omega)
      split
      case isTrue hin' =>
        have hne : address s (coordinate s o i) ≠ address s (coordinate s o n) := fun heq =>
          hlast (coordinate_inj hdims o (address_inj hin hin' heq))
        rw [Memory.read?_write_other _ hne, hold]
      case isFalse => exact hold

/-! ### The settings of a conversion -/

/-- The registers and memories that the host sets for a conversion and no conversion changes. -/
structure SameSetup (s t : State) : Prop where
  fmt : t.fmt = s.fmt
  ori : t.ori = s.ori
  pad : t.pad = s.pad
  width : t.width = s.width
  height : t.height = s.height
  inLen : t.inLen = s.inLen
  texin : t.texin = s.texin
  nibbleOrder : t.nibbleOrder = s.nibbleOrder

theorem SameSetup.coordOf {s t : State} (h : SameSetup s t) (o : Orientation) (i : Nat) :
    coordOf t o i = coordinate s o i :=
  (coordOf_congr h.width h.height h.pad o i).trans (coordOf_eq_coordinate s o i)

theorem SameSetup.legalDims {s t : State} (h : SameSetup s t) (hdims : s.legalDims) : t.legalDims := by
  rw [State.legalDims, h.width, h.height]
  exact hdims

theorem SameSetup.inside {s t : State} (h : SameSetup s t) (xy : Nat × Nat) :
    inside t xy ↔ inside s xy := by
  rw [Claims.inside, h.width, h.height]

theorem SameSetup.pixAddr {s t : State} (h : SameSetup s t) (xy : Nat × Nat) :
    pixAddr t xy = address s xy := by
  rw [Machine.pixAddr, h.width, address]

theorem LoadFrame.sameSetup {s t : State} (h : LoadFrame s t) : SameSetup s t := by
  obtain ⟨_, _, _, _, _, _, _, rfl⟩ := h
  exact ⟨rfl, rfl, rfl, rfl, rfl, rfl, rfl, rfl⟩

theorem SameSetup.trans {s t u : State} (h : SameSetup s t) (h' : SameSetup t u) : SameSetup s u where
  fmt := h'.fmt.trans h.fmt
  ori := h'.ori.trans h.ori
  pad := h'.pad.trans h.pad
  width := h'.width.trans h.width
  height := h'.height.trans h.height
  inLen := h'.inLen.trans h.inLen
  texin := h'.texin.trans h.texin
  nibbleOrder := h'.nibbleOrder.trans h.nibbleOrder

/-! ### After some pixels -/

/-- `i` pixels have been loaded: the input stands before pixel `i`, the picture holds the pixels before it, and the
input has not run out. -/
structure Loaded (s : State) (f : Format) (o : Orientation) (i : Nat) (t : State) : Prop where
  setup : SameSetup s t
  atPixel : AtPixel f t i
  pix : t.pix = painted s f o i
  eos : t.eos = false

/-- A load starts on the rewound input (R280). -/
theorem loaded_rewindInput (s : State) (f : Format) (o : Orientation) :
    Loaded s f o 0 (rewindInput s) where
  setup := (rewindInput_frame s).sameSetup
  atPixel := atPixel_rewindInput f s
  pix := rfl
  eos := State.eos_withEos _ false

/-- What a load looks at is not changed by a write of other registers. -/
theorem Loaded.of_same {s t u : State} {f : Format} {o : Orientation} {i : Nat} (h : Loaded s f o i t)
    (hsetup : SameSetup t u) (hinput : SameInput t u) (hpix : u.pix = t.pix) (heos : u.eos = t.eos) :
    Loaded s f o i u where
  setup := h.setup.trans hsetup
  atPixel := h.atPixel.of_sameInput hinput
  pix := hpix.trans h.pix
  eos := heos.trans h.eos

theorem InputFrame.sameSetup {s t : State} (h : InputFrame s t) : SameSetup s t := h.toLoad.sameSetup

/-- The next pixel is stored, and the load has come one further, whatever other registers have been written since
the pixel was decoded (R280). -/
theorem Loaded.next {s t u : State} {f : Format} {o : Orientation} {i : Nat} (h : Loaded s f o i t)
    (hdims : s.legalDims) (hi : i < pixelsHeld f s.inLen.toNat)
    (hsetup : SameSetup (decodePixel f t).2 u) (hinput : SameInput (decodePixel f t).2 u)
    (hpix : u.pix = t.pix) (heos : u.eos = t.eos) :
    ∃ v, storePixel u (coordinate s o i) (decodePixel f t).1 = .next v ∧ Loaded s f o (i + 1) v := by
  obtain ⟨hcolor, hnext⟩ := h.atPixel.decodePixel (by rwa [h.setup.inLen])
  rw [streamColor_congr h.setup.texin h.setup.nibbleOrder] at hcolor
  have hsetup' : SameSetup s u := (h.setup.trans (decodePixel_frame f t).sameSetup).trans hsetup
  have hat : AtPixel f u (i + 1) := hnext.of_sameInput hinput
  have hpainted := hpix.trans h.pix
  have heos' := heos.trans h.eos
  by_cases hin : Claims.inside s (coordinate s o i)
  case pos =>
    have hin' := (hsetup'.inside _).mpr hin
    refine ⟨_, storePixel_of_inside (hsetup'.legalDims hdims) hin' _,
      hsetup'.trans ⟨rfl, rfl, rfl, rfl, rfl, rfl, rfl, rfl⟩, hat.of_sameInput ⟨rfl, rfl, rfl, rfl, rfl, rfl⟩,
      ?_, heos'⟩
    rw [State.setPix_pix, hsetup'.pixAddr, hpainted, hcolor, painted, if_pos hin]
  case neg =>
    have hout := mt (hsetup'.inside _).mp hin
    refine ⟨u, storePixel_of_not_inside hout _, hsetup', hat, ?_, heos'⟩
    rw [hpainted, painted, if_neg hin]

/-! ### LOAD -/

/-- The end of a load: `EOS` is set if the input ran out before `n` pixels, and `DONE_CNT` counts the pixels (R280,
R284). -/
def loadEnd (f : Format) (n : Nat) (t : State) : State :=
  if pixelsHeld f t.inLen.toNat < n then
    (t.withEos true).setDoneCnt (BitVec.ofNat 29 (pixelsHeld f t.inLen.toNat))
  else t.setDoneCnt (BitVec.ofNat 29 n)

/-- Decoding a pixel changes neither the picture nor `EOS` (R172). -/
theorem decodePixel_pix_eos (f : Format) (s : State) :
    (decodePixel f s).2.pix = s.pix ∧ (decodePixel f s).2.eos = s.eos := by
  obtain ⟨_, _, _, _, h⟩ := decodePixel_frame f s
  rw [h]
  exact ⟨rfl, rfl⟩

/-- LOAD's loop comes as far as the input goes, and no further than the canvas (R280, R284). -/
theorem exists_loadLoop_loaded {s t : State} {f : Format} {o : Orientation} {left i : Nat}
    (hdims : s.legalDims) (h : Loaded s f o i t) (hi : i ≤ pixelsHeld f s.inLen.toNat) :
    ∃ u, loadLoop f o left i t = .next (loadEnd f (i + left) u) ∧
      Loaded s f o (min (i + left) (pixelsHeld f s.inLen.toNat)) u := by
  have hlen := h.setup.inLen
  induction left generalizing i t with
  | zero =>
    refine ⟨t, ?_, ?_⟩
    · rw [loadEnd, hlen, if_neg (by omega)]
      rfl
    · rwa [Nat.add_zero, Nat.min_eq_left hi]
  | succ left ih =>
    have hhas := h.atPixel.hasInput_iff (by rwa [hlen])
    rw [hlen] at hhas
    by_cases hmore : i < pixelsHeld f s.inLen.toNat
    case pos =>
      obtain ⟨hpix, heos⟩ := decodePixel_pix_eos f t
      obtain ⟨v, hv, hnext⟩ := h.next (u := (decodePixel f t).2) hdims hmore
        ⟨rfl, rfl, rfl, rfl, rfl, rfl, rfl, rfl⟩ ⟨rfl, rfl, rfl, rfl, rfl, rfl⟩ hpix heos
      obtain ⟨u, hu, hend⟩ := ih hnext (by omega) hnext.setup.inLen
      rw [Nat.add_right_comm, Nat.add_assoc] at hu hend
      refine ⟨u, ?_, hend⟩
      rw [loadLoop_of_hasInput (hhas.mpr hmore), h.setup.coordOf, hv, andThen_next, hu]
    case neg =>
      obtain rfl : i = pixelsHeld f s.inLen.toNat := by omega
      refine ⟨t, ?_, ?_⟩
      · rw [loadLoop_of_not_hasInput (mt hhas.mp hmore), loadEnd, hlen, if_pos (by omega)]
      · rwa [Nat.min_eq_right (by omega)]

/-- With good settings LOAD completes (R280). -/
theorem exists_exec_load {s : State} {f : Format} {o : Orientation} (h : settings s f o) :
    ∃ t, exec .load s = .next (loadEnd f (s.sw * s.sh) t) ∧
      Loaded s f o (min (s.sw * s.sh) (pixelsHeld f s.inLen.toNat)) t := by
  obtain ⟨hf, ho, hdims⟩ := h
  obtain ⟨t, ht, hend⟩ := exists_loadLoop_loaded (left := seqLength s) hdims (loaded_rewindInput s f o)
    (Nat.zero_le _)
  rw [Nat.zero_add] at ht hend
  exact ⟨t, (exec_load hf ho).trans ht, hend⟩

/-- `DONE_CNT` counts the pixels that were converted (R283, R284). -/
theorem doneCnt_loadEnd (f : Format) {n : Nat} (hn : n ≤ 2 ^ 28) (t : State) :
    (loadEnd f n t).doneCnt.toNat = min n (pixelsHeld f t.inLen.toNat) := by
  unfold loadEnd
  split <;> rw [State.setDoneCnt_doneCnt, BitVec.toNat_ofNat] <;> omega

theorem loadEnd_of_le {f : Format} {n : Nat} {t : State} (h : n ≤ pixelsHeld f t.inLen.toNat) :
    loadEnd f n t = t.setDoneCnt (BitVec.ofNat 29 n) := if_neg (Nat.not_lt.mpr h)

theorem loadEnd_of_lt {f : Format} {n : Nat} {t : State} (h : pixelsHeld f t.inLen.toNat < n) :
    loadEnd f n t = (t.withEos true).setDoneCnt (BitVec.ofNat 29 (pixelsHeld f t.inLen.toNat)) := if_pos h

theorem pix_loadEnd (f : Format) (n : Nat) (t : State) : (loadEnd f n t).pix = t.pix := by
  unfold loadEnd
  split <;> rfl

/-! ### A whole canvas -/

/-- The canvas is made of tiles of 64 pixels (R241). -/
theorem dvd_canvas {s : State} (hdims : s.legalDims) : 64 ∣ s.sw * s.sh := by
  obtain ⟨hw, -, hh, -⟩ := hdims
  exact Nat.mul_dvd_mul (eight_dvd_strideOf s.pad hw) (eight_dvd_strideOf s.pad hh)

/-- Whole tiles fit into the input exactly when their bytes do (R283). -/
theorem le_pixelsHeld_iff (f : Format) {n : Nat} (hn : 64 ∣ n) (len : Nat) :
    n ≤ pixelsHeld f len ↔ n * bitsPerPixel f / 8 ≤ len := by
  cases f <;> simp only [pixelsHeld, bitsPerPixel] <;> omega

/-- After whole tiles the input stands after their bytes, with nothing pending (R283). -/
theorem AtPixel.after_tiles {f : Format} {s : State} {n : Nat} (h : AtPixel f s n) (hn : 64 ∣ n) :
    s.inPtr.toNat = n * bitsPerPixel f / 8 ∧ s.inNib = 0#8 ∧ s.bqCnt = 0#5 := by
  have blocks {a : Bool} (h : AfterBlocks a s n) :
      s.inPtr.toNat = n / 16 * Config.etcBytes a ∧ s.inNib = 0#8 ∧ s.bqCnt = 0#5 := by
    refine ⟨?_, h.inNib, ?_⟩
    · rw [h.inPtr]
      congr 1
      omega
    · apply BitVec.eq_of_toNat_eq
      rw [h.bqCnt, BitVec.toNat_ofNat]
      omega
  cases f
  case l4 | a4 =>
    have hptr := h.inPtr
    have hodd : ¬ n % 2 = 1 := by omega
    refine ⟨?_, h.inNib.trans (if_neg hodd), h.bqCnt⟩
    simp only [bitsPerPixel]
    omega
  case etc1 | etc1a4 =>
    obtain ⟨hptr, hrest⟩ := blocks h
    simp only [Config.etcBytes, Config.etcBlockBytes, Config.etcAlphaBytes] at hptr
    refine ⟨?_, hrest⟩
    simp only [bitsPerPixel]
    omega
  all_goals
    have hptr := h.inPtr
    refine ⟨?_, h.inNib, h.bqCnt⟩
    simp only [bitsPerPixel] at hptr ⊢
    omega

/-! ### The single steps -/

/-- The state after SETIDX of an index and COORD, which finds a coordinate (R120). -/
def pointed (t : State) (i : Nat) (xy : Nat × Nat) : State :=
  withCoordinate (t.setIdx (BitVec.ofNat 28 i)) xy

/-- Every step of a sequence starts by pointing at its index (R120). -/
theorem runAll_setidx_coord {s t : State} {o : Orientation} {i : Nat} (hsetup : SameSetup s t)
    (ho : s.ori = orientationCode o) (hidx : i < 2 ^ 28) (rest : List Instr) :
    runAll (.setidx (BitVec.ofNat 28 i) :: .coord :: rest) t =
      runAll rest (pointed t i (coordinate s o i)) := by
  have hori : (t.setIdx (BitVec.ofNat 28 i)).ori = orientationCode o := hsetup.ori.trans ho
  have hcoord : coordOf (t.setIdx (BitVec.ofNat 28 i)) o (t.setIdx (BitVec.ofNat 28 i)).idx.toNat =
      coordinate s o i := by
    rw [State.setIdx_idx, BitVec.toNat_ofNat, Nat.mod_eq_of_lt hidx, ← hsetup.coordOf o i]
    exact coordOf_congr rfl rfl rfl o i
  rw [runAll_cons, exec_setidx, andThen_next, runAll_cons, exec_coord hori, hcoord]
  rfl

/-- `X` and `Y` hold the coordinate of an index whole (R27). -/
theorem pointed_xy {s : State} (hdims : s.legalDims) (o : Orientation) (t : State) {i : Nat}
    (hidx : i < 2 ^ 28) :
    ((pointed t i (coordinate s o i)).x.toNat, (pointed t i (coordinate s o i)).y.toNat) =
      coordinate s o i := by
  obtain ⟨hx, hy⟩ := coordOf_lt hdims o hidx
  rw [coordOf_eq_coordinate] at hx hy
  exact Prod.ext (toNat_ofNat_of_lt hx) (toNat_ofNat_of_lt hy)

theorem sameSetup_pointed (t : State) (i : Nat) (xy : Nat × Nat) : SameSetup t (pointed t i xy) :=
  ⟨rfl, rfl, rfl, rfl, rfl, rfl, rfl, rfl⟩

/-- `LOADSTEP i` loads pixel `i` (R120, R282). -/
theorem runAll_loadStep {s t : State} {f : Format} {o : Orientation} {i : Nat} (hset : settings s f o)
    (h : Loaded s f o i t) (hi : i < pixelsHeld f s.inLen.toNat) (hidx : i < 2 ^ 28) :
    ∃ u, runAll (loadStep i) t = .next u ∧ Loaded s f o (i + 1) u := by
  obtain ⟨hf, ho, hdims⟩ := hset
  have hxy := pointed_xy hdims o t hidx
  have hcoord := runAll_setidx_coord h.setup ho hidx [.decpx, .wrpix]
  generalize hp : pointed t i (coordinate s o i) = p at hxy hcoord
  have hloaded : Loaded s f o i p := by
    rw [← hp]
    exact h.of_same (sameSetup_pointed t i _) ⟨rfl, rfl, rfl, rfl, rfl, rfl⟩ rfl (State.eos_withInb _ _)
  have hhas := (hloaded.atPixel.hasInput_iff (by rw [hloaded.setup.inLen]; exact hi.le)).mpr
    (by rwa [hloaded.setup.inLen])
  have hdecode := exec_decpx_of_hasInput (hloaded.setup.fmt.trans hf) hhas
  obtain ⟨hpix, heos⟩ := decodePixel_pix_eos f p
  obtain ⟨v, hv, hnext⟩ := hloaded.next (u := (decodePixel f p).2.setColor (decodePixel f p).1) hdims hi
    ⟨rfl, rfl, rfl, rfl, rfl, rfl, rfl, rfl⟩ ⟨rfl, rfl, rfl, rfl, rfl, rfl⟩ hpix heos
  have hstore : exec .wrpix ((decodePixel f p).2.setColor (decodePixel f p).1) = .next v := by
    obtain ⟨_, _, _, _, hframe⟩ := decodePixel_frame f p
    have hx : (decodePixel f p).2.x = p.x := by rw [hframe]
    have hy : (decodePixel f p).2.y = p.y := by rw [hframe]
    rw [exec_wrpix, State.setColor_x, State.setColor_y, State.setColor_color, hx, hy, hxy, hv]
  refine ⟨v, ?_, hnext⟩
  rw [loadStep, hcoord, runAll_cons, hdecode, andThen_next, runAll_cons, hstore]
  rfl

/-- A step that takes what holds at each index to the next one, run over all of them. -/
theorem runAll_range {step : Nat → List Instr} {P : Nat → State → Prop} {n : Nat} {s : State}
    (h0 : P 0 s) (hstep : ∀ i < n, ∀ t, P i t → ∃ u, runAll (step i) t = .next u ∧ P (i + 1) u) :
    ∃ u, runAll ((List.range n).flatMap step) s = .next u ∧ P n u := by
  induction n with
  | zero => exact ⟨s, rfl, h0⟩
  | succ n ih =>
    obtain ⟨t, ht, hn⟩ := ih fun i hi => hstep i (by omega)
    obtain ⟨u, hu, hend⟩ := hstep n (by omega) t hn
    refine ⟨u, ?_, hend⟩
    rw [List.range_succ, List.flatMap_append, runAll_append, ht, andThen_next, List.flatMap_singleton, hu]

end Sys2Proof.Machine

namespace Sys2Proof.Proofs

open Sys2Proof.Machine Sys2Proof.Claims

/-- Settles O45: the load ends where the input or the canvas does, and whole tiles leave nothing pending. -/
theorem loadConsumesTheInput : Obligations.LoadConsumesTheInput := by
  unfold Obligations.LoadConsumesTheInput
  intro s f o hset n held
  have ⟨_, _, hdims⟩ := hset
  obtain ⟨t, ht, hend⟩ := exists_exec_load hset
  have hlen : t.inLen = s.inLen := hend.setup.inLen
  refine ⟨_, ht, ?done, le_pixelsHeld_iff f (dvd_canvas hdims) _, fun hle => ?whole, fun hlt => ?short⟩
  case done =>
    have hcount : s.sw * s.sh ≤ 2 ^ 28 := seqLength_le hdims
    rw [doneCnt_loadEnd f hcount, hlen]
  case whole =>
    have hat := hend.atPixel
    rw [Nat.min_eq_left hle] at hat
    rw [loadEnd_of_le (by rwa [hlen])]
    exact ⟨hend.eos, hat.after_tiles (dvd_canvas hdims)⟩
  case short =>
    rw [loadEnd_of_lt (by rwa [hlen])]
    exact State.eos_withEos t true

/-- Settles O46: `LOADSTEP i` loads pixel `i` as a pass of the loop does, so both end after the same pixels. -/
theorem loadIsTheStepSequence : Obligations.LoadIsTheStepSequence := by
  unfold Obligations.LoadIsTheStepSequence
  intro s f o hset hheld
  have ⟨_, _, hdims⟩ := hset
  have hcount : s.sw * s.sh ≤ 2 ^ 28 := seqLength_le hdims
  obtain ⟨t, ht, hload⟩ := exists_exec_load hset
  rw [Nat.min_eq_left hheld] at hload
  rw [loadEnd_of_le (by rwa [hload.setup.inLen])] at ht
  obtain ⟨u, hu, hsteps⟩ := runAll_range (P := Loaded s f o) (n := s.sw * s.sh) (loaded_rewindInput s f o)
    fun i hi v hv => runAll_loadStep hset hv (by omega) (by omega)
  refine ⟨_, u, ht, ?run, hload.pix.trans hsteps.pix.symm, ?cursor⟩
  case run => rw [runAll_cons, exec_rstin, andThen_next, hu]
  case cursor =>
    obtain ⟨hptr, hnib, hbq⟩ := hload.atPixel.after_tiles (dvd_canvas hdims)
    obtain ⟨hptr', hnib', hbq'⟩ := hsteps.atPixel.after_tiles (dvd_canvas hdims)
    exact ⟨BitVec.eq_of_toNat_eq (hptr.trans hptr'.symm), hnib.trans hnib'.symm, hbq.trans hbq'.symm,
      hload.eos.trans hsteps.eos.symm⟩

/-- Settles O47: the pixels that were reached have been painted, and the end of the load leaves the picture. -/
theorem loadPairsStreamAndCoordinates : Obligations.LoadPairsStreamAndCoordinates := by
  unfold Obligations.LoadPairsStreamAndCoordinates
  intro s f o hset
  have ⟨_, _, hdims⟩ := hset
  obtain ⟨t, ht, hend⟩ := exists_exec_load hset
  refine ⟨_, ht, fun i hi hheld hin => ?_⟩
  rw [pixAt, pix_loadEnd, hend.pix, read?_painted hdims f o (by omega) hin, Option.getD_some]

end Sys2Proof.Proofs

/-! Where the output stands after some pixels of a stream that starts empty (R76, R137, R210 to R233): the length, the
pending nibble and the bundle, format by format, and that the next pixel has room. -/

namespace Sys2Proof.Machine

open Sys2Proof.Claims

/-! ### The position -/

/-- Bytes in TEXOUT after `i` pixels. -/
def bytesAfter (f : Format) (i : Nat) : Nat :=
  match f with
  | .l4 | .a4 => i / 2
  | .etc1 => Config.etcBytes false * (i / 16)
  | .etc1a4 => Config.etcBytes true * (i / 16)
  | _ => bitsPerPixel f / 8 * i

/-- Whether a nibble is pending after `i` pixels. -/
def nibbleHeld (f : Format) (i : Nat) : Bool :=
  match f with
  | .l4 | .a4 => decide (i % 2 = 1)
  | _ => false

/-- Colors in the bundle after `i` pixels. -/
def colorsHeld (f : Format) (i : Nat) : Nat :=
  match f with
  | .etc1 | .etc1a4 => i % 16
  | _ => 0

/-- `i` pixels have been written. -/
structure AtOutput (f : Format) (s : State) (i : Nat) : Prop where
  outLen : s.outLen.toNat = bytesAfter f i
  nibPending : nibPending s.outNib = nibbleHeld f i
  outNib : nibbleHeld f i = false → s.outNib = 0#8
  ebCnt : s.ebCnt.toNat = colorsHeld f i

/-- The emptied output stands before pixel 0 (R137). -/
theorem atOutput_emptyOutput (f : Format) (s : State) : AtOutput f (emptyOutput s) 0 := by
  cases f <;> exact ⟨rfl, nibPending_zero, fun _ => rfl, rfl⟩

/-- No conversion fills TEXOUT (R76). -/
theorem bytesAfter_le (f : Format) (i : Nat) : bytesAfter f i ≤ 4 * i := by
  cases f <;> simp only [bytesAfter, bitsPerPixel, Config.etcBytes, Config.etcBlockBytes,
    Config.etcAlphaBytes] <;> omega

/-! ### The next pixel -/

/-- An append that ends where the next pixel starts. -/
theorem AtOutput.of_appends {f : Format} {s t : State} {i : Nat} {out : List Byte} {nib : BitVec 8}
    (h : AtOutput f s i) (happ : appends s t out nib) (hroom : roomFor s out.length)
    (hlen : bytesAfter f i + out.length = bytesAfter f (i + 1))
    (hpend : Machine.nibPending nib = nibbleHeld f (i + 1)) (hnib : nibbleHeld f (i + 1) = false → nib = 0#8)
    (hcnt : colorsHeld f (i + 1) = colorsHeld f i) : AtOutput f t (i + 1) := by
  have hend := appends_outLen happ hroom
  obtain ⟨-, hfield, -⟩ := appends_fields happ
  obtain ⟨hstate, -, -⟩ := happ
  refine ⟨by rw [hend, h.outLen, hlen], by rw [hfield, hpend], fun h' => hfield.trans (hnib h'), ?_⟩
  rw [hcnt, ← h.ebCnt, hstate]

/-- Where a format of whole bytes stands. -/
theorem output_of_byteAligned {f : Format} (hf : byteAligned f = true) (i : Nat) :
    bytesAfter f i = bitsPerPixel f / 8 * i ∧ nibbleHeld f i = false ∧ colorsHeld f i = 0 := by
  cases f
  case l4 | a4 | etc1 | etc1a4 => cases hf
  all_goals exact ⟨rfl, rfl, rfl⟩

/-- A pixel of whole bytes is appended (R220 to R229). -/
theorem exists_encodePixel_of_byteAligned {f : Format} (hf : byteAligned f = true) (c : Color) {s : State}
    (hidle : s.outNib = 0#8) (hroom : roomFor s (bitsPerPixel f / 8)) :
    ∃ t out, encodePixel f c s = .next t ∧ appends s t out 0#8 ∧ out.length = bitsPerPixel f / 8 := by
  have hpend : Machine.nibPending s.outNib = false := by rw [hidle, nibPending_zero]
  have bytes {l : List Byte} (henc : encodePixel f c = wrBytes l) (hl : l.length = bitsPerPixel f / 8) :
      ∃ t out, encodePixel f c s = .next t ∧ appends s t out 0#8 ∧ out.length = bitsPerPixel f / 8 := by
    obtain ⟨t, ht, happ⟩ := wrBytes_appends_of_idle hpend (l := l) (by rwa [hl])
    rw [hidle] at happ
    exact ⟨t, l, by rw [henc, ht], happ, hl⟩
  have nibbles {v : List Nat} (hv : nibblesOf (formatCode f) c = some v)
      (hl : (paired s.nibbleOrder v).1.length = bitsPerPixel f / 8)
      (hnib : (paired s.nibbleOrder v).2 = 0#8) :
      ∃ t out, encodePixel f c s = .next t ∧ appends s t out 0#8 ∧ out.length = bitsPerPixel f / 8 := by
    obtain ⟨l, -, rfl, henc⟩ := encodePixel_nibbles hv
    obtain ⟨t, ht, happ⟩ := wrNibs_appends_of_idle l s hpend (fun _ => hidle) (by rwa [hl])
    rw [hnib] at happ
    exact ⟨t, _, by rw [henc, ht], happ, hl⟩
  cases f
  case l4 | a4 | etc1 | etc1a4 => cases hf
  case rgba5551 | rgb565 => exact bytes (encodePixel_packed rfl) (by simp [bitsPerPixel])
  case rgba4444 | la44 => exact nibbles rfl (by simp [paired, bitsPerPixel]) rfl
  all_goals exact bytes (encodePixel_wholeBytes rfl).2 (by simp [bitsPerPixel])

/-- A pixel of half a byte waits, or makes a byte with the one that waits (R230, R231). -/
theorem AtOutput.exists_halfByte {f : Format} (hf : f = .l4 ∨ f = .a4) {s : State} {i : Nat}
    (h : AtOutput f s i) (hroom : roomFor s 1) (v : Nibble) :
    ∃ t, wrNibs [v] s = .next t ∧ AtOutput f t (i + 1) := by
  have hpend := h.nibPending
  have hbytes : ∀ i, bytesAfter f i = i / 2 := by rcases hf with rfl | rfl <;> exact fun _ => rfl
  have hheld : ∀ i, nibbleHeld f i = decide (i % 2 = 1) := by rcases hf with rfl | rfl <;> exact fun _ => rfl
  have hcolors : ∀ i, colorsHeld f i = 0 := by rcases hf with rfl | rfl <;> exact fun _ => rfl
  rw [hheld] at hpend
  rcases Nat.mod_two_eq_zero_or_one i with heven | hodd
  · rw [heven] at hpend
    have hnext : (i + 1) % 2 = 1 := by omega
    refine ⟨_, andThen_eq_next.mpr ⟨_, wrNib_first hpend v, rfl⟩, ?_⟩
    refine h.of_appends (out := []) (appends_setOutNib (appends_nil s) _) (roomFor_zero s) ?_ ?_ ?_ ?_
    · rw [hbytes, hbytes, List.length_nil]; omega
    · rw [hheld, hnext]; exact nibPending_holding v
    · rw [hheld, hnext]; exact nofun
    · rw [hcolors, hcolors]
  · rw [hodd] at hpend
    have hnext : (i + 1) % 2 = 0 := by omega
    obtain ⟨t, ht, happ⟩ := wrNib_appends_of_pending hpend hroom v
    refine ⟨t, andThen_eq_next.mpr ⟨t, ht, rfl⟩, h.of_appends happ hroom ?_ ?_ ?_ ?_⟩
    · rw [hbytes, hbytes, List.length_singleton]; omega
    · rw [hheld, hnext]; exact nibPending_zero
    · exact fun _ => rfl
    · rw [hcolors, hcolors]

/-- What `etcPut` does, whatever bundle the color makes (R214). -/
theorem exists_bundle_etcPut (a : Bool) (c : Color) (s : State) : ∃ e : Bundle,
    (s.ebCnt.toNat < 15 → etcPut a c s = .next ((s.setEb e).setEbCnt (s.ebCnt + 1#4))) ∧
      (s.ebCnt = 15#4 → etcPut a c s =
        andThen (wrBytes (Config.blockEncode a e).toList (s.setEb e)) fun u => .next (u.setEbCnt 0#4)) :=
  ⟨collect s c, fun h => etcPut_collect h a c, fun h => etcPut_full h a c⟩

/-- A color joins the bundle, or makes a block with the 15 before it (R214). -/
theorem AtOutput.exists_etcPut {a : Bool} {s : State} {i : Nat}
    (h : AtOutput (if a then .etc1a4 else .etc1) s i) (hroom : roomFor s (Config.etcBytes a)) (c : Color) :
    ∃ t, etcPut a c s = .next t ∧ AtOutput (if a then .etc1a4 else .etc1) t (i + 1) := by
  have hbytes : ∀ i, bytesAfter (if a then .etc1a4 else .etc1) i = Config.etcBytes a * (i / 16) := by
    cases a <;> exact fun _ => rfl
  have hheld : ∀ i, nibbleHeld (if a then .etc1a4 else .etc1) i = false := by
    cases a <;> exact fun _ => rfl
  have hcolors : ∀ i, colorsHeld (if a then .etc1a4 else .etc1) i = i % 16 := by
    cases a <;> exact fun _ => rfl
  obtain ⟨hlen, hpend, hnib, hcnt⟩ := h
  replace hnib := hnib (hheld i)
  rw [hbytes] at hlen
  rw [hcolors] at hcnt
  obtain ⟨e, hcollect, hfull⟩ := exists_bundle_etcPut a c s
  by_cases hlast : i % 16 = 15
  case neg =>
    have hblock : (i + 1) / 16 = i / 16 := by omega
    refine ⟨_, hcollect (by omega), ?_, ?_, fun _ => hnib, ?_⟩
    · rw [hbytes, hblock]
      exact hlen
    · rw [hheld, ← hheld i]
      exact hpend
    · rw [hcolors, State.setEbCnt_ebCnt, BitVec.toNat_add, BitVec.toNat_ofNat]
      omega
  case pos =>
    replace hfull := hfull (BitVec.eq_of_toNat_eq (hcnt.trans hlast))
    have hblock : (i + 1) / 16 = i / 16 + 1 := by omega
    have hblockLen : (Config.blockEncode a (e)).toList.length = Config.etcBytes a :=
      Vector.length_toList
    have hidle : Machine.nibPending (s.setEb (e)).outNib = false := by
      rw [State.setEb_outNib, hnib, nibPending_zero]
    obtain ⟨t, ht, happ⟩ := wrBytes_appends_of_idle hidle (by rw [hblockLen]; exact hroom)
    have hend := appends_outLen happ (by rw [hblockLen]; exact hroom)
    obtain ⟨-, hfield, -⟩ := appends_fields happ
    rw [State.setEb_outNib, hnib] at hfield
    refine ⟨t.setEbCnt 0#4, ?_, ?_, ?_, fun _ => hfield, ?_⟩
    · rw [hfull, ht, andThen_next]
    · rw [State.setEbCnt_outLen, hend, State.setEb_outLen, hlen, hblockLen, hbytes, hblock, Nat.mul_succ]
    · rw [State.setEbCnt_outNib, hfield, nibPending_zero, hheld]
    · rw [hcolors, State.setEbCnt_ebCnt, BitVec.toNat_ofNat]
      omega

/-- The next pixel is written (R210). -/
theorem AtOutput.exists_encodePixel {f : Format} {s : State} {i : Nat} (h : AtOutput f s i)
    (hi : i < 2 ^ 28) (c : Color) : ∃ t, encodePixel f c s = .next t ∧ AtOutput f t (i + 1) := by
  have hle := bytesAfter_le f i
  have hlen := h.outLen
  have room {n : Nat} (hn : n ≤ 16) : roomFor s n := by rw [roomFor]; omega
  have bytes (hf : byteAligned f = true) : ∃ t, encodePixel f c s = .next t ∧ AtOutput f t (i + 1) := by
    obtain ⟨hbytes, hheld, hcolors⟩ := output_of_byteAligned hf i
    obtain ⟨hbytes', hheld', hcolors'⟩ := output_of_byteAligned hf (i + 1)
    have hroom : roomFor s (bitsPerPixel f / 8) := room (by cases f <;> decide)
    obtain ⟨t, out, ht, happ, hout⟩ := exists_encodePixel_of_byteAligned hf c (h.outNib hheld) hroom
    refine ⟨t, ht, h.of_appends happ (by rwa [hout]) ?_ ?_ (fun _ => rfl) (by rw [hcolors, hcolors'])⟩
    · rw [hbytes, hbytes', hout, Nat.mul_succ]
    · rw [hheld', nibPending_zero]
  cases f
  case l4 => exact h.exists_halfByte (.inl rfl) (room (by decide)) _
  case a4 => exact h.exists_halfByte (.inr rfl) (room (by decide)) _
  case etc1 => exact AtOutput.exists_etcPut (a := false) h (room (by decide)) c
  case etc1a4 => exact AtOutput.exists_etcPut (a := true) h (room (by decide)) c
  all_goals exact bytes rfl

end Sys2Proof.Machine

/-! What an encoded pixel depends on (R210 to R233): the output side and the nibble order, and no other register. -/

namespace Sys2Proof.Machine

open Sys2Proof.Claims

/-- Two states with the same output side. -/
structure SameOutput (s t : State) : Prop where
  texout : t.texout = s.texout
  outLen : t.outLen = s.outLen
  outNib : t.outNib = s.outNib
  eb : t.eb = s.eb
  ebCnt : t.ebCnt = s.ebCnt
  nibbleOrder : t.nibbleOrder = s.nibbleOrder

theorem SameOutput.refl (s : State) : SameOutput s s := ⟨rfl, rfl, rfl, rfl, rfl, rfl⟩

/-- An operation that completes on one state completes on every other with the same output side, and leaves the
same output side. -/
def OutputLocal (g : State → Result) : Prop :=
  ∀ s t s' : State, SameOutput s t → g s = .next s' → ∃ t', g t = .next t' ∧ SameOutput s' t'

theorem OutputLocal.andThen {g k : State → Result} (hg : OutputLocal g) (hk : OutputLocal k) :
    OutputLocal fun s => andThen (g s) k := by
  intro s t s' hst h
  obtain ⟨u, hu, hs'⟩ := andThen_eq_next.mp h
  obtain ⟨v, hv, huv⟩ := hg _ _ _ hst hu
  obtain ⟨t', ht', hst'⟩ := hk _ _ _ huv hs'
  exact ⟨t', andThen_eq_next.mpr ⟨v, hv, ht'⟩, hst'⟩

theorem outputLocal_next : OutputLocal .next := by
  intro s t s' hst h
  cases h
  exact ⟨t, rfl, hst⟩

theorem outputLocal_setOutNib (v : BitVec 8) : OutputLocal fun s => .next (s.setOutNib v) := by
  intro s t s' hst h
  cases h
  exact ⟨_, rfl, { hst with outNib := rfl }⟩

theorem outputLocal_texAppend (b : Byte) : OutputLocal (texAppend b) := by
  intro s t s' hst h
  obtain ⟨hne, rfl⟩ := texAppend_eq_next.mp h
  refine ⟨_, texAppend_room (by rwa [hst.outLen]) b, { hst with texout := ?_, outLen := ?_ }⟩
  · rw [State.setTexout_texout, State.setTexout_texout, hst.texout, hst.outLen]
  · rw [State.setTexout_outLen, State.setTexout_outLen, hst.outLen]

/-- An operation that chooses by what the output side holds. -/
theorem OutputLocal.of_cases {g : State → Result}
    (h : ∀ s, ∃ k, OutputLocal k ∧ g s = k s ∧ ∀ t, SameOutput s t → g t = k t) : OutputLocal g := by
  intro s t s' hst hs'
  obtain ⟨k, hk, hs, ht⟩ := h s
  rw [ht t hst]
  exact hk _ _ _ hst (hs ▸ hs')

/-- The byte that a pending nibble completes depends on the output side only (R73, R74). -/
theorem outputLocal_complete (v : Nibble) {g : State → Result}
    (hpend : ∀ s, nibPending s.outNib = true → g s =
      Machine.andThen (texAppend (joinNibbles s.nibbleOrder (nibValue s.outNib) v) s)
        fun t => .next (t.setOutNib 0#8))
    {k : State → Result} (hk : OutputLocal k) (hidle : ∀ s, nibPending s.outNib = false → g s = k s) :
    OutputLocal g := by
  refine .of_cases fun s => ?_
  cases h : nibPending s.outNib
  case false => exact ⟨k, hk, hidle s h, fun t hst => hidle t (by rw [hst.outNib, h])⟩
  case true =>
    refine ⟨_, (outputLocal_texAppend (joinNibbles s.nibbleOrder (nibValue s.outNib) v)).andThen
      (outputLocal_setOutNib 0#8), hpend s h, fun t hst => ?_⟩
    rw [hpend t (by rw [hst.outNib, h]), hst.outNib, hst.nibbleOrder]

theorem outputLocal_flushNib : OutputLocal flushNib :=
  outputLocal_complete 0#4 (fun _ => flushNib_pending) outputLocal_next fun _ => flushNib_idle

theorem outputLocal_wrByte (b : Byte) : OutputLocal (wrByte b) :=
  outputLocal_flushNib.andThen (outputLocal_texAppend b)

theorem outputLocal_wrBytes (l : List Byte) : OutputLocal (wrBytes l) := by
  induction l with
  | nil => exact outputLocal_next
  | cons b rest ih => exact (outputLocal_wrByte b).andThen ih

theorem outputLocal_wrNib (v : Nibble) : OutputLocal (wrNib v) :=
  outputLocal_complete v (fun _ h => wrNib_second h v) (outputLocal_setOutNib _) fun _ h => wrNib_first h v

theorem outputLocal_wrNibs (l : List Nibble) : OutputLocal (wrNibs l) := by
  induction l with
  | nil => exact outputLocal_next
  | cons v rest ih => exact (outputLocal_wrNib v).andThen ih

theorem outputLocal_setEbCnt (k : BitVec 4) : OutputLocal fun s => .next (s.setEbCnt k) := by
  intro s t s' hst h
  cases h
  exact ⟨_, rfl, { hst with ebCnt := rfl }⟩

theorem collect_congr {s t : State} (hst : SameOutput s t) (c : Color) : collect t c = collect s c := by
  simp only [collect, hst.eb, hst.ebCnt]

/-- The bundle is part of the output side (R214). -/
theorem outputLocal_etcPut (a : Bool) (c : Color) : OutputLocal (etcPut a c) := by
  intro s t s' hst h
  have hcollect := collect_congr hst c
  by_cases hcnt : s.ebCnt.toNat < 15
  case pos =>
    rw [etcPut_collect hcnt] at h
    rw [etcPut_collect (by rwa [hst.ebCnt]), hcollect, hst.ebCnt]
    generalize collect s c = e at h ⊢
    cases h
    exact ⟨_, rfl, { hst with eb := rfl, ebCnt := rfl }⟩
  case neg =>
    have hlast : s.ebCnt = 15#4 := by
      have hlt : s.ebCnt.toNat < 16 := s.ebCnt.isLt
      exact BitVec.eq_of_toNat_eq (by rw [BitVec.toNat_ofNat]; omega)
    rw [etcPut_full hlast] at h
    rw [etcPut_full (hst.ebCnt.trans hlast), hcollect]
    generalize collect s c = e at h ⊢
    have hbundle : SameOutput (s.setEb e) (t.setEb e) := { hst with eb := rfl }
    exact ((outputLocal_wrBytes _).andThen (outputLocal_setEbCnt 0#4)) _ _ _ hbundle h

theorem outputLocal_encodePixel (f : Format) (c : Color) : OutputLocal (encodePixel f c) := by
  cases f with
  | rgba8888 | rgb888 | la88 | hl88 | l8 | a8 => exact outputLocal_wrBytes _
  | rgba5551 | rgb565 => exact (outputLocal_wrByte _).andThen (outputLocal_wrByte _)
  | rgba4444 | la44 | l4 | a4 => exact outputLocal_wrNibs _
  | etc1 | etc1a4 => exact outputLocal_etcPut _ c

end Sys2Proof.Machine

/-! SAVE pixel by pixel (R285 to R288): what holds after `i` pixels of a save, whether SAVE's own loop or the single
steps have come so far. -/

namespace Sys2Proof.Machine

open Sys2Proof.Claims

/-! ### After some pixels -/

/-- The color that SAVE reads at index `i`: the pixel at its coordinate, clamped into the buffer (R285). -/
def sampled (s : State) (o : Orientation) (i : Nat) : Color :=
  pixAt s (address s (clamped s (coordinate s o i)))

/-- In a format made of whole bytes, TEXOUT holds the bytes of the first `i` colors, one pixel after another. -/
def Written (s : State) (f : Format) (o : Orientation) (i : Nat) (t : State) : Prop :=
  ∀ j < i, ∀ out, wholeBytes (formatCode f) (sampled s o j) = some out →
    ∀ k (h : k < out.length), t.texout.read? (out.length * j + k) = some (channel out[k])

/-- `i` pixels have been saved: the output stands after them and holds their bytes, and the picture and the settings
are as before. -/
structure Saved (s : State) (f : Format) (o : Orientation) (i : Nat) (t : State) : Prop where
  setup : SameSetup s t
  pix : t.pix = s.pix
  atOutput : AtOutput f t i
  legal : OutputLegal t
  written : Written s f o i t

theorem OutputFrame.sameSetup {s t : State} (h : OutputFrame s t) : SameSetup s t ∧ t.pix = s.pix := by
  obtain ⟨_, _, _, _, _, rfl⟩ := h
  exact ⟨⟨rfl, rfl, rfl, rfl, rfl, rfl, rfl, rfl⟩, rfl⟩

/-- A save starts on the emptied output (R285). -/
theorem saved_emptyOutput (s : State) (f : Format) (o : Orientation) : Saved s f o 0 (emptyOutput s) where
  setup := (emptyOutput_frame s).sameSetup.1
  pix := rfl
  atOutput := atOutput_emptyOutput f s
  legal := ⟨nibLegal_zero, rfl⟩
  written := fun _ hj => absurd hj (Nat.not_lt_zero _)

theorem SameOutput.trans {s t u : State} (h : SameOutput s t) (h' : SameOutput t u) : SameOutput s u where
  texout := h'.texout.trans h.texout
  outLen := h'.outLen.trans h.outLen
  outNib := h'.outNib.trans h.outNib
  eb := h'.eb.trans h.eb
  ebCnt := h'.ebCnt.trans h.ebCnt
  nibbleOrder := h'.nibbleOrder.trans h.nibbleOrder

/-- What a save looks at is not changed by a write of other registers. -/
theorem Saved.of_same {s t u : State} {f : Format} {o : Orientation} {i : Nat} (h : Saved s f o i t)
    (hsetup : SameSetup t u) (hpix : u.pix = t.pix) (houtput : SameOutput t u) : Saved s f o i u where
  setup := h.setup.trans hsetup
  pix := hpix.trans h.pix
  atOutput :=
    ⟨by rw [houtput.outLen, h.atOutput.outLen], by rw [houtput.outNib, h.atOutput.nibPending],
      fun hi => by rw [houtput.outNib, h.atOutput.outNib hi], by rw [houtput.ebCnt, h.atOutput.ebCnt]⟩
  legal := h.legal.of_eq houtput.outNib houtput.texout houtput.outLen
  written := by
    rw [Written, houtput.texout]
    exact h.written

/-- The color at a coordinate is read from the picture as it was before the save (R285). -/
theorem Saved.samplePixel {s t : State} {f : Format} {o : Orientation} {i : Nat} (h : Saved s f o i t)
    (hdims : s.legalDims) (k : Color → Result) :
    samplePixel t (coordinate s o i) k = k (sampled s o i) := by
  have hclamp : clamp t (coordinate s o i) = clamped s (coordinate s o i) := by
    rw [clamp, h.setup.width, h.setup.height, clamped]
  rw [samplePixel_of_legalDims (h.setup.legalDims hdims), hclamp, h.setup.pixAddr, pixAt_congr h.pix, sampled]

/-- In a format made of whole bytes every color has as many bytes as its bits say (R104). -/
theorem format_of_wholeBytes {f : Format} {c : Color} {out : List Nat}
    (h : wholeBytes (formatCode f) c = some out) : byteAligned f = true ∧
      (∀ i, bytesAfter f i = out.length * i) ∧ ∀ c', ∃ out', wholeBytes (formatCode f) c' = some out' := by
  cases f
  case rgba8888 | rgb888 | la88 | hl88 | l8 | a8 =>
    obtain rfl : _ = out := by simpa [wholeBytes, formatCode] using h
    exact ⟨rfl, fun i => by simp [bytesAfter, bitsPerPixel], fun c' => ⟨_, rfl⟩⟩
  -- No other format is made of whole bytes.
  all_goals simp [wholeBytes, formatCode] at h

/-- The bytes of the next pixel follow those of the pixels before it. -/
theorem Saved.written_next {s t u : State} {f : Format} {o : Orientation} {i : Nat} (h : Saved s f o i t)
    (hi : i < 2 ^ 28) (henc : encodePixel f (sampled s o i) t = .next u) : Written s f o (i + 1) u := by
  intro j hj out hout k hk
  obtain ⟨haligned, hbytes, hall⟩ := format_of_wholeBytes hout
  obtain ⟨last, hlast⟩ := hall (sampled s o i)
  obtain ⟨-, hbytes', -⟩ := format_of_wholeBytes hlast
  have hlen := h.atOutput.outLen
  have hle := bytesAfter_le f i
  have hmore := hbytes' (i + 1)
  have hle' := bytesAfter_le f (i + 1)
  -- The write of the last pixel.
  have hidle : nibPending t.outNib = false :=
    h.atOutput.nibPending.trans (output_of_byteAligned haligned i).2.1
  obtain ⟨v, hv, happ⟩ := wrBytes_appends_of_idle (l := last.map channel) hidle (by
    rw [List.length_map, roomFor, hlen, hbytes', ← Nat.mul_succ, ← hmore]
    omega)
  rw [(encodePixel_wholeBytes hlast).2, hv] at henc
  cases henc
  obtain ⟨-, hnew, hold⟩ := happ
  rw [hlen] at hnew hold
  by_cases hji : j = i
  case pos =>
    subst hji
    obtain rfl : last = out := Option.some.inj (hlast.symm.trans hout)
    rw [← hbytes, hnew k (by rwa [List.length_map]), List.getElem_map]
  case neg =>
    have hbefore : out.length * j + k < bytesAfter f i := by
      calc out.length * j + k < out.length * (j + 1) := by rw [Nat.mul_succ]; omega
        _ ≤ out.length * i := Nat.mul_le_mul_left _ (by omega)
        _ = bytesAfter f i := (hbytes i).symm
    rw [hold _ (.inl hbefore)]
    exact h.written j (by omega) out hout k hk

/-- The next pixel is written, and the save has come one further (R285). -/
theorem Saved.next {s t : State} {f : Format} {o : Orientation} {i : Nat} (h : Saved s f o i t)
    (hi : i < 2 ^ 28) :
    ∃ u, encodePixel f (sampled s o i) t = .next u ∧ Saved s f o (i + 1) u := by
  obtain ⟨u, hu, hat⟩ := h.atOutput.exists_encodePixel hi (sampled s o i)
  obtain ⟨hsetup, hpix⟩ := (encodePixel_frame hu).sameSetup
  exact ⟨u, hu, h.setup.trans hsetup, hpix.trans h.pix, hat, encodePixel_outputLegal hu h.legal,
    h.written_next hi hu⟩

/-! ### SAVE -/

/-- A pass of SAVE's loop (R285). -/
theorem Saved.saveLoop {s t u : State} {f : Format} {o : Orientation} {i : Nat} (h : Saved s f o i t)
    (hdims : s.legalDims) (hu : encodePixel f (sampled s o i) t = .next u) (left : Nat) :
    saveLoop f o (left + 1) i t = saveLoop f o left (i + 1) u := by
  rw [Machine.saveLoop, h.setup.coordOf, h.samplePixel hdims, hu, andThen_next]

/-- SAVE's loop comes to the end of the canvas (R285, R286). -/
theorem exists_saveLoop_saved {s t : State} {f : Format} {o : Orientation} {left i : Nat}
    (hdims : s.legalDims) (h : Saved s f o i t) (hlen : i + left ≤ 2 ^ 28) :
    ∃ u, saveLoop f o left i t = .next (u.setDoneCnt (BitVec.ofNat 29 (i + left))) ∧
      Saved s f o (i + left) u := by
  induction left generalizing i t with
  | zero => exact ⟨t, rfl, h⟩
  | succ left ih =>
    obtain ⟨u, hu, hnext⟩ := h.next (by omega)
    obtain ⟨v, hv, hend⟩ := ih hnext (by omega)
    rw [Nat.add_right_comm, Nat.add_assoc] at hv hend
    exact ⟨v, (h.saveLoop hdims hu left).trans hv, hend⟩

/-- With good settings SAVE completes (R286). -/
theorem exists_exec_save {s : State} {f : Format} {o : Orientation} (h : settings s f o) :
    ∃ t, exec .save s = .next (t.setDoneCnt (BitVec.ofNat 29 (s.sw * s.sh))) ∧
      Saved s f o (s.sw * s.sh) t := by
  obtain ⟨hf, ho, hdims⟩ := h
  have hlen : 0 + seqLength s ≤ 2 ^ 28 := (Nat.zero_add _).trans_le (seqLength_le hdims)
  obtain ⟨t, ht, hend⟩ := exists_saveLoop_saved hdims (saved_emptyOutput s f o) hlen
  rw [Nat.zero_add] at ht hend
  exact ⟨t, (exec_save hf ho).trans ht, hend⟩

/-- After whole tiles the output holds their bytes, with nothing pending (R286). -/
theorem AtOutput.after_tiles {f : Format} {s : State} {n : Nat} (h : AtOutput f s n) (hn : 64 ∣ n) :
    s.outLen.toNat = n * bitsPerPixel f / 8 ∧ s.outNib = 0#8 ∧ s.ebCnt = 0#4 := by
  have hbytes : bytesAfter f n = n * bitsPerPixel f / 8 := by
    cases f <;> simp only [bytesAfter, bitsPerPixel, Config.etcBytes, Config.etcBlockBytes,
      Config.etcAlphaBytes] <;> omega
  have hheld : nibbleHeld f n = false := by
    have heven : ¬ n % 2 = 1 := by omega
    cases f <;> simp only [nibbleHeld, heven, decide_false]
  have hcolors : colorsHeld f n = 0 := by
    cases f <;> simp only [colorsHeld] <;> omega
  exact ⟨h.outLen.trans hbytes, h.outNib hheld, BitVec.eq_of_toNat_eq (h.ebCnt.trans hcolors)⟩

/-- The final state of SAVE in terms of its own fields, as the statements write it (R286). -/
theorem SaveFrame.eq_with {s t : State} (h : SaveFrame s t) :
    t = { s with
      texout := t.texout, outLen := t.outLen, outNib := t.outNib, ebCnt := t.ebCnt, eb := t.eb,
      doneCnt := t.doneCnt } := by
  obtain ⟨u, d, ⟨_, _, _, _, _, rfl⟩, rfl⟩ := h
  rfl

/-! ### The single steps -/

/-- `SAVESTEP i` saves pixel `i` (R120, R287). -/
theorem runAll_saveStep {s t : State} {f : Format} {o : Orientation} {i : Nat} (hset : settings s f o)
    (h : Saved s f o i t) (hi : i < 2 ^ 28) :
    ∃ p, SameOutput t p ∧ Saved s f o i p ∧
      runAll (saveStep i) t = encodePixel f (sampled s o i) p := by
  obtain ⟨hf, ho, hdims⟩ := hset
  have hxy := pointed_xy hdims o t hi
  have hcoord := runAll_setidx_coord h.setup ho hi [.rdpix, .encpx]
  have houtput : SameOutput t (pointed t i (coordinate s o i)) := ⟨rfl, rfl, rfl, rfl, rfl, rfl⟩
  have hsaved := h.of_same (sameSetup_pointed t i _) rfl houtput
  generalize pointed t i (coordinate s o i) = p at hxy hcoord houtput hsaved
  have hsaved' : Saved s f o i (p.setColor (sampled s o i)) :=
    hsaved.of_same ⟨rfl, rfl, rfl, rfl, rfl, rfl, rfl, rfl⟩ rfl ⟨rfl, rfl, rfl, rfl, rfl, rfl⟩
  refine ⟨p.setColor (sampled s o i), { houtput with }, hsaved', ?_⟩
  have hread : exec .rdpix p = .next (p.setColor (sampled s o i)) := by
    rw [exec_rdpix, hxy, hsaved.samplePixel hdims]
  have hencode := exec_encpx (s := p.setColor (sampled s o i)) (hsaved'.setup.fmt.trans hf)
  rw [saveStep, hcoord, runAll_cons, hread, andThen_next, runAll_cons, hencode, State.setColor_color]
  cases encodePixel f (sampled s o i) (p.setColor (sampled s o i)) <;> rfl

/-- SAVE's loop over `n` indices and the single steps have both come to index `i`, with the same output. -/
def SavedAlike (s : State) (f : Format) (o : Orientation) (n i : Nat) (u : State) : Prop :=
  Saved s f o i u ∧ ∃ t, Saved s f o i t ∧ SameOutput t u ∧
    saveLoop f o n 0 (emptyOutput s) = saveLoop f o (n - i) i t

/-- Both go on to the next index. -/
theorem SavedAlike.next {s u : State} {f : Format} {o : Orientation} {n i : Nat} (hset : settings s f o)
    (h : SavedAlike s f o n i u) (hi : i < n) (hn : n ≤ 2 ^ 28) :
    ∃ v, runAll (saveStep i) u = .next v ∧ SavedAlike s f o n (i + 1) v := by
  have ⟨_, _, hdims⟩ := hset
  obtain ⟨hu, t, ht, htu, hloop⟩ := h
  obtain ⟨p, hup, hp, hstep⟩ := runAll_saveStep hset hu (by omega)
  obtain ⟨v, hv, hvSaved⟩ := hp.next (by omega)
  obtain ⟨t', ht', htSaved⟩ := ht.next (by omega)
  have htp : SameOutput t p := htu.trans hup
  obtain ⟨v', hv', htv⟩ := outputLocal_encodePixel f (sampled s o i) _ _ _ htp ht'
  rw [hv] at hv'
  cases hv'
  refine ⟨v, hstep.trans hv, hvSaved, t', htSaved, htv, ?_⟩
  have hleft : n - i = n - (i + 1) + 1 := by omega
  rw [hloop, hleft, ht.saveLoop hdims ht']

/-! ### The bytes of a save as the input of a load -/

/-- The host moves the output to the input, and sets the picture (R288). -/
def reloaded (t : State) (p : Memory 32) : State :=
  { t with texin := t.texout, inLen := t.outLen, pix := p }

/-- The input at a byte of TEXIN, with nothing pending. -/
def inputAt (s : State) (a : Nat) : State := { s with inPtr := BitVec.ofNat 32 a, inNib := 0#8 }

theorem inputAt_inPtr {s : State} {a : Nat} (ha : a < s.inLen.toNat) : (inputAt s a).inPtr.toNat = a := by
  have hlt : s.inLen.toNat < 2 ^ 32 := s.inLen.isLt
  rw [inputAt, BitVec.toNat_ofNat, Nat.mod_eq_of_lt (by omega)]

theorem byteAt_inputAt {s : State} {a : Nat} (ha : a < s.inLen.toNat) (k : Nat) :
    byteAt (inputAt s a) k = texRead s (a + k) := by
  rw [byteAt, inputAt_inPtr ha]
  rfl

theorem available_inputAt {s : State} {a : Nat} (ha : a < s.inLen.toNat) :
    available (inputAt s a) = s.inLen.toNat - a := by
  rw [available_eq_avail, avail, inputAt_inPtr ha]
  rfl

/-- The four bytes of a color are a pixel of RGBA8888 with that color (R180, R220). -/
theorem streamColor_rgba8888 {s : State} {i : Nat} {c : Color} (hlen : 4 * (i + 1) ≤ s.inLen.toNat)
    (h : ∀ k (hk : k < 4), texRead s (4 * i + k) =
      channel ([alpha c, blue c, green c, red c][k]'hk)) : streamColor s .rgba8888 i = c := by
  have hin : 4 * i < s.inLen.toNat := by omega
  have havail : 4 ≤ available (inputAt s (4 * i)) := by
    rw [available_inputAt hin]
    omega
  obtain ⟨hA, hR, hG, hB⟩ := channels_eq c
  calc streamColor s .rgba8888 i
      = byteAt (inputAt s (4 * i)) 0 ++ byteAt (inputAt s (4 * i)) 3 ++ byteAt (inputAt s (4 * i)) 2 ++
          byteAt (inputAt s (4 * i)) 1 :=
        congrArg Prod.fst (decodePixel_wholeByte (f := .rgba8888) rfl havail).2
    _ = argb (chanA c) (chanR c) (chanG c) (chanB c) := by
        simp only [byteAt_inputAt hin]
        rw [h 0 (by decide), h 1 (by decide), h 2 (by decide), h 3 (by decide), hA, hR, hG, hB]
        rfl
    _ = c := argb_chan c

/-- Pixel `i` of the stream that a save of RGBA8888 wrote is the color sampled at index `i` (R288). -/
theorem streamColor_reloaded {s t : State} {o : Orientation} {n i : Nat} (h : Saved s .rgba8888 o n t)
    (hi : i < n) (p : Memory 32) : streamColor (reloaded t p) .rgba8888 i = sampled s o i := by
  have hlen : t.outLen.toNat = 4 * n := h.atOutput.outLen
  refine streamColor_rgba8888 ?_ fun k hk => ?_
  · rw [reloaded, hlen]
    omega
  · have hbyte : t.texout.read? (4 * i + k) = _ := h.written i hi _ rfl k hk
    simp only [texRead, reloaded, hbyte, Option.getD_some]

theorem SameSetup.strides {s t : State} (h : SameSetup s t) : t.sw = s.sw ∧ t.sh = s.sh := by
  simp only [State.sw, State.sh, h.pad, h.width, h.height, and_self]

/-- A pixel of the buffer is its own clamped pixel (R260). -/
theorem clamped_of_inside {s : State} {xy : Nat × Nat} (h : inside s xy) : clamped s xy = xy := by
  obtain ⟨hx, hy⟩ := h
  rw [clamped, Nat.min_eq_left (by omega), Nat.min_eq_left (by omega)]

/-- Every pixel of the buffer is at the coordinate of an index (R251). -/
theorem exists_coordinate_of_inside {s : State} (hdims : s.legalDims) (o : Orientation) {xy : Nat × Nat}
    (h : inside s xy) : ∃ i, i < s.sw * s.sh ∧ coordinate s o i = xy :=
  exists_coordinate_eq hdims o (h.1.trans_le (le_strideOf s.pad _)) (h.2.trans_le (le_strideOf s.pad _))

/-- A load of what a save of RGBA8888 wrote stores the colors sampled (R288). -/
theorem exists_load_reloaded {s t : State} {o : Orientation} (hset : settings s .rgba8888 o)
    (h : Saved s .rgba8888 o (s.sw * s.sh) t) (p : Memory 32) :
    ∃ u, exec .load (reloaded t p) = .next u ∧ u.eos = false ∧ u.doneCnt.toNat = s.sw * s.sh ∧
      ∀ i < s.sw * s.sh, inside s (coordinate s o i) →
        pixAt u (address s (coordinate s o i)) = sampled s o i := by
  obtain ⟨hf, ho, hdims⟩ := hset
  have hcount : s.sw * s.sh ≤ 2 ^ 28 := seqLength_le hdims
  have hlen : t.outLen.toNat = 4 * (s.sw * s.sh) := h.atOutput.outLen
  -- The settings of the load are those of the save.
  have hdims' : (reloaded t p).legalDims := h.setup.legalDims hdims
  obtain ⟨hsw, hsh⟩ : (reloaded t p).sw = s.sw ∧ (reloaded t p).sh = s.sh := h.setup.strides
  have hcoord : ∀ i, coordinate (reloaded t p) o i = coordinate s o i := fun i =>
    (coordOf_eq_coordinate (reloaded t p) o i).symm.trans (h.setup.coordOf o i)
  have haddr : ∀ xy, address (reloaded t p) xy = address s xy := h.setup.pixAddr
  have hheld : pixelsHeld .rgba8888 (reloaded t p).inLen.toNat = s.sw * s.sh := by
    have hwhole : pixelsHeld .rgba8888 (reloaded t p).inLen.toNat = 8 * t.outLen.toNat / 32 := rfl
    omega
  obtain ⟨u, hu, hload⟩ := exists_exec_load (s := reloaded t p) (f := .rgba8888) (o := o)
    ⟨h.setup.fmt.trans hf, h.setup.ori.trans ho, hdims'⟩
  rw [hsw, hsh, hheld, Nat.min_self] at hload
  rw [hsw, hsh, loadEnd_of_le (by rw [hload.setup.inLen, hheld])] at hu
  refine ⟨_, hu, hload.eos, ?done, fun i hi hin => ?pixel⟩
  case done =>
    rw [State.setDoneCnt_doneCnt, BitVec.toNat_ofNat]
    omega
  case pixel =>
    have hin' : inside (reloaded t p) (coordinate (reloaded t p) o i) := by
      rw [hcoord]
      exact (h.setup.inside _).mpr hin
    have hread := read?_painted hdims' .rgba8888 o hi hin'
    rw [hcoord, haddr, streamColor_reloaded h hi, ← hload.pix] at hread
    rw [pixAt, State.setDoneCnt_pix, hread, Option.getD_some]

end Sys2Proof.Machine

namespace Sys2Proof.Proofs

open Sys2Proof.Machine Sys2Proof.Claims

/-- Settles O48: the save comes to the end of the canvas, and whole tiles leave nothing pending. -/
theorem saveWritesWholeOutput : Obligations.SaveWritesWholeOutput := by
  unfold Obligations.SaveWritesWholeOutput
  intro s f o hset
  have ⟨hf, ho, hdims⟩ := hset
  have hcount : s.sw * s.sh ≤ 2 ^ 28 := seqLength_le hdims
  obtain ⟨t, ht, hend⟩ := exists_exec_save hset
  obtain ⟨hlen, hnib, hcnt⟩ := hend.atOutput.after_tiles (dvd_canvas hdims)
  obtain ⟨-, haddr⟩ := hend.legal
  refine ⟨_, ht, ?frame, hlen, ?done, haddr⟩
  case frame =>
    have hloop := (exec_save hf ho).symm.trans ht
    obtain ⟨u, d, hu, heq⟩ := saveLoop_frame hloop
    have hframe : SaveFrame s (t.setDoneCnt (BitVec.ofNat 29 (s.sw * s.sh))) :=
      ⟨u, d, (emptyOutput_frame s).trans hu, heq⟩
    rw [← hnib, ← hcnt]
    exact hframe.eq_with
  case done =>
    rw [State.setDoneCnt_doneCnt, BitVec.toNat_ofNat]
    omega

/-- Settles O49: `SAVESTEP i` saves pixel `i` as a pass of the loop does, on the same output. -/
theorem saveIsTheStepSequence : Obligations.SaveIsTheStepSequence := by
  unfold Obligations.SaveIsTheStepSequence
  intro s f o hset
  have ⟨hf, ho, hdims⟩ := hset
  have hcount : s.sw * s.sh ≤ 2 ^ 28 := seqLength_le hdims
  have hstart : SavedAlike s f o (s.sw * s.sh) 0 (emptyOutput s) :=
    ⟨saved_emptyOutput s f o, _, saved_emptyOutput s f o, .refl _, rfl⟩
  obtain ⟨u, hu, -, t, -, htu, hloop⟩ := runAll_range (n := s.sw * s.sh) hstart
    fun i hi v hv => hv.next hset hi hcount
  rw [Nat.sub_self] at hloop
  refine ⟨_, u, (exec_save hf ho).trans hloop, ?run, ?output⟩
  case run => rw [runAll_cons, exec_rstout, andThen_next, hu]
  case output => exact ⟨htu.texout.symm, htu.outLen.symm, htu.outNib.symm, htu.ebCnt.symm⟩

/-- Settles O50: in L8 the bytes of a color are its green channel. -/
theorem saveOfLuminanceReadsClampedGreen : Obligations.SaveOfLuminanceReadsClampedGreen := by
  unfold Obligations.SaveOfLuminanceReadsClampedGreen
  intro s o hset
  have ⟨_, _, hdims⟩ := hset
  obtain ⟨t, ht, hend⟩ := exists_exec_save hset
  obtain ⟨hlen, -, -⟩ := hend.atOutput.after_tiles (dvd_canvas hdims)
  refine ⟨_, ht, ?length, fun i hi => ?byte⟩
  case length =>
    rw [State.setDoneCnt_outLen, hlen, bitsPerPixel]
    omega
  case byte =>
    have hbyte := hend.written i hi [green (sampled s o i)] rfl 0 Nat.zero_lt_one
    rwa [List.length_singleton, Nat.one_mul] at hbyte

/-- Settles O51: the load stores at each coordinate the color that the save sampled there, and inside the buffer that
is the pixel's own. -/
theorem saveThenLoadRestoresThePicture : Obligations.SaveThenLoadRestoresThePicture := by
  unfold Obligations.SaveThenLoadRestoresThePicture
  intro s o hset
  have ⟨_, _, hdims⟩ := hset
  obtain ⟨t, ht, hend⟩ := exists_exec_save hset
  have hend' : Saved s .rgba8888 o (s.sw * s.sh) (t.setDoneCnt (BitVec.ofNat 29 (s.sw * s.sh))) :=
    hend.of_same ⟨rfl, rfl, rfl, rfl, rfl, rfl, rfl, rfl⟩ rfl ⟨rfl, rfl, rfl, rfl, rfl, rfl⟩
  refine ⟨_, ht, fun p => ?_⟩
  obtain ⟨u, hu, heos, hdone, hpix⟩ := exists_load_reloaded hset hend' p
  refine ⟨u, hu, heos, hdone, fun x y hx hy => ?_⟩
  have hin : inside s (x, y) := ⟨hx, hy⟩
  obtain ⟨i, hi, hxy⟩ := exists_coordinate_of_inside hdims o hin
  have hpixel := hpix i hi (by rwa [hxy])
  rwa [sampled, hxy, clamped_of_inside hin] at hpixel

end Sys2Proof.Proofs
